-- ==== Sys2Proof/Word.lean ====
section
/-! DEFINITION. The one word the part's two serial channels carry: the 8-bit byte of a command-link transfer, which is
also the 8-bit data value of a site-line character (R142, R192). Every other quantity of the part is a whole number with
a unit (R1, Conventions of 00_scope.md), so it is a `Nat` or an `Int`, not a word. -/

namespace Sys2Proof

/-- A byte of a command-link transfer, or the data value 0..255 of a site-line character (R142, R192). -/
abbrev Byte := BitVec 8

/-- The byte that carries a number, taken modulo 256. -/
abbrev Byte.ofNat (n : Nat) : Byte := BitVec.ofNat 8 n

end Sys2Proof
end

