-- ==== Sys2Proof/Config.lean ====
section
/-! DEFINITION. What the manual leaves open and the model leaves free: constants without a body. -/

namespace Sys2Proof

/-- Which of several events that stand at one instant is taken first. The manual gives the result of each order and
fixes no order ("Events taken at a block", 00_scope.md; R55, R58, R92, R117, R131, R174), so the choice is a free value:
no body, applied to the State counter `choices`. Used only when the block's own timers meet (log entry 3). -/
opaque Config.eventChoice : Nat → Nat

/-- The HZ encoder's raw count where a rule reads it at a step whose command carries none: an event of the part's own
timers, or the position of rest after RESET (R125). Where the axis stands is the instrument's (00_scope.md), so the
reading is a free value, applied to the State counter `choices` (log entries 10 and 16). -/
opaque Config.hzReading : Nat → Int

/-- The VT encoder's raw count where a rule reads it at a step whose command carries none (log entries 10 and 16). -/
opaque Config.vtReading : Nat → Int

/-- The HZ seek travel gained up to the first reading of the encoder since power-on reset: no reading says where that
seek began, so it is a free value, applied to the State counter `choices` (log entry 1). -/
opaque Config.hzFirstTravel : Nat → Nat

/-- The VT seek travel gained up to the first reading of the encoder since power-on reset (log entry 1). -/
opaque Config.vtFirstTravel : Nat → Nat

/-- How long the line stays at space after a framing error, in fine units: the rules bound it by the 24 bit times of a
break (R142, R149) and do not give it, so it is a free value, applied to the State counter `choices` (log entry 9). -/
opaque Config.spaceAfterError : Nat → Nat

/-- Another station still holds the line at space when the part's own break is released: breaks may overlap, and the
receiver's break ends when the last station lets go (R149). Nothing that the part holds tells, so it is a free value,
applied to the State counter `choices` (log entry 29). -/
opaque Config.otherBreak : Nat → Bool

end Sys2Proof
end

