-- ==== Sys2Proof/Syntax.lean ====
section
/-! DEFINITION. The commands of the block: one constructor of `Instr` for every row of spec/opcode_table.json, with the
operands each row's rule gives it.

The nineteen host commands and UNKNOWN_COMMAND arrive as command frames (R177). Their constructors hold the operands
already read out of the payload bytes by `decodeTransfer` (Decode.lean, R195, R196). `none`, or `fits = false` for a
command without payload, stands for a frame whose length is not the command's payload length (R180, test 2).

The other rows are events at the pins and timers of the part. Where an event is one at which a drive's encoder is read,
its operand `raw` is the encoder's raw count at that instant (R107). -/

namespace Sys2Proof

/-- The two axis drives (Axis Drives). -/
inductive Axis where
  | hz | vt
  deriving DecidableEq, Repr

/-- A position on the site grid, whole millimetres (R4). -/
structure Grid where
  e : Int
  n : Int
  h : Int
  deriving DecidableEq, Repr

/-- What the receiver gives for one character time of the line (R142). -/
inductive LineChar where
  | marked (value : Byte)
  | unmarked (value : Byte)
  | framingError
  deriving DecidableEq, Repr

/-- One pending mark for each of the eight events, in the order of R187's table. -/
structure EventSet where
  observation : Bool
  queueFull : Bool
  targetLost : Bool
  axisFault : Bool
  holdChanged : Bool
  stationClash : Bool
  axesReady : Bool
  forcedDropped : Bool
  deriving DecidableEq, Repr

/-- A pulse the detector front end gives (R133, R137): its start and end instants, in µs after the start of the window
in progress, and its offset on each axis, in cu. -/
structure Pulse where
  start : Int
  stop : Int
  dx : Int
  dy : Int
  deriving DecidableEq, Repr

/-- CONFIGURE (R181): the payload of R196. -/
structure ConfigureArgs where
  station : Nat
  group : Nat
  /-- 0 no, 1 yes; any other value is refused. -/
  listenOnly : Nat
  hzOffset : Nat
  vtOffset : Nat
  deriving DecidableEq, Repr

/-- SET_STATION (R6): the five fields of the station setup record. -/
structure StationArgs where
  es : Int
  ns : Int
  hs : Int
  hi : Nat
  o : Nat
  deriving DecidableEq, Repr

/-- LOAD_TARGET (R22). `cls` is the class code of R196: 1 MACHINE, 2 MONITOR, 3 CONTROL. -/
structure LoadArgs where
  prism : Nat
  cls : Nat
  blink : Nat
  nominal : Option Grid
  interval : Nat
  dwell : Nat
  deriving DecidableEq, Repr

/-- EDIT_TARGET (R25). -/
structure EditArgs where
  prism : Nat
  interval : Nat
  dwell : Nat
  nominal : Option Grid
  deriving DecidableEq, Repr

/-- SET_SECTOR (R49). `mode` is the mode code of R196: 1 OPEN, 2 MASKED. -/
structure SectorArgs where
  first : Nat
  last : Nat
  mode : Nat
  vmin : Nat
  vmax : Nat
  deriving DecidableEq, Repr

/-- READ_SECTOR (R51): the range of sectors. -/
structure SectorRange where
  first : Nat
  last : Nat
  deriving DecidableEq, Repr

/-- RANGE (R94). -/
structure RangeArgs where
  seq : Nat
  distance : Nat
  deriving DecidableEq, Repr

/-- The commands of the part, in the order of spec/opcode_table.json. -/
inductive Instr where
  /-- R8, R171: `holdIn` is the level of HOLD_IN found at power-on. -/
  | powerOnReset (holdIn : Bool)
  | configure (args : Option ConfigureArgs)
  | setStation (args : Option StationArgs)
  | loadTarget (args : Option LoadArgs)
  | editTarget (args : Option EditArgs)
  | retireTarget (prism : Option Nat)
  | readTarget (slot : Option Nat)
  | setSector (args : Option SectorArgs)
  | readSector (args : Option SectorRange)
  | run (fits : Bool)
  | pause (fits : Bool)
  | aimNow (prism : Option Nat)
  | range (args : Option RangeArgs)
  | takeObservation (fits : Bool)
  | readStatus (fits : Bool)
  | readPeers (fits : Bool)
  | ackEvents (marks : Option EventSet)
  /-- R183: `axis` is the axis code of R196: 1 HZ, 2 VT, 3 BOTH. -/
  | clearFault (axis : Option Nat)
  | siteHold (fits : Bool)
  | reset (fits : Bool)
  /-- R177, R180: `code` is the byte received as command code, 0 when none was received. -/
  | unknownCommand (code : Byte)
  /-- R179: a read in which the host clocks out `count` bytes. -/
  | responseRead (count : Nat)
  | dueTimeExpiry (slot : Nat)
  | deferUntilExpiry (slot : Nat)
  | arrived (axis : Axis) (raw : Int)
  | fineArrival (axis : Axis) (raw : Int)
  /-- R131, R138: the raw counts are those at the window's end, from which the angles are latched. -/
  | windowEnd (hzRaw : Int) (vtRaw : Int)
  | trackSample
  | trackDwellExpiry
  | rangingWaitExpiry
  | blockDecay
  | abandonDeadlineExpiry
  | settleEnd (axis : Axis) (raw : Int)
  /-- R110: `raw` is the raw count of the edge, `rest` the raw count where the axis comes to rest when the edge
  completes a pair and the seek stops. -/
  | indexEdge (axis : Axis) (rising : Bool) (raw : Int) (rest : Int)
  | vtSeekReversal (raw : Int)
  | seekTravelExhausted (axis : Axis) (raw : Int)
  | progressIntervalEnd (axis : Axis) (raw : Int)
  /-- R119, R122: the bridge fault input becomes asserted, or released (which only R122 looks at). -/
  | bridgeFaultInput (axis : Axis) (asserted : Bool)
  | vtLimitCrossing (raw : Int)
  | hzSectorCrossing (raw : Int)
  | returnPulse (pulse : Pulse)
  /-- R139: `done` is the instant of completion, in µs after the start of the window in progress. -/
  | identityCode (code : Nat) (done : Int)
  | receiveCharacter (char : LineChar)
  | frameEnd
  | breakBegin
  | breakEnd
  | accessGapExpiry
  | echoCharacter (char : LineChar)
  | echoTimeout
  | breakRelease
  /-- R161: `entry` is the entry of the peer table, 0..7. -/
  | peerRecordExpiry (entry : Nat)
  | intentExpiry (entry : Nat)
  | presenceDeadline
  | holdInRising
  | holdInFalling
  | repeatDeadlineExpiry
  | holdDeadlineExpiry
  | startBit
  deriving DecidableEq, Repr

end Sys2Proof
end

