-- ==== Sys2Proof/Machine/State.lean ====
section
/-! DEFINITION. The state of the part, block by block (Block overview, 00_scope.md), and its value after power-on reset.

Angles are whole circle units held as `Int`, distances millimetres and times site-clock milliseconds held as `Nat`.
Instants of the optics and of the site line are counted in *fine units* of 1/72 µs, the largest unit in which both the
microsecond (72 units) and the bit time of 1/115,200 s (625 units) are whole (log entry 2). -/

namespace Sys2Proof.Machine

open Sys2Proof

/-! ### Geometry Unit -/

/-- The station setup record (R5). -/
structure Setup where
  es : Int
  ns : Int
  hs : Int
  hi : Nat
  o : Int
  deriving DecidableEq, Repr

/-- A direction of the part, or a pair of axis angles (Hz, V), in cu. -/
structure Angles where
  hz : Int
  v : Int
  deriving DecidableEq, Repr

/-! ### Target Table -/

/-- The three classes of prism, in the order of R196. -/
inductive PrismClass where
  | machine | monitor | control
  deriving DecidableEq, Repr

/-- Where a fix came from (R19). -/
inductive FixSource where
  | own
  | peer (station : Nat)
  deriving DecidableEq, Repr

/-- A fix (R19). -/
structure Fix where
  pos : Grid
  time : Nat
  source : FixSource
  quality : Nat
  deriving DecidableEq, Repr

/-- A velocity in mm/s (R35). -/
structure Velocity where
  e : Int
  n : Int
  h : Int
  deriving DecidableEq, Repr

/-- The reasons a record is marked UNREACHABLE (R19), in the order of R198. -/
inductive UnreachableReason where
  | tooClose | tooFar | masked | outOfLimits
  deriving DecidableEq, Repr

/-- The outcomes of an aim (R95), in the order of R198. -/
inductive AimOutcome where
  | observed | missed | trackLost | yielded | aborted | retired | abandoned | faulted
  | unreachable (reason : UnreachableReason)
  deriving DecidableEq, Repr

/-- The states of a non-FREE record (R20). -/
inductive RecordState where
  | idle | active | deferred
  deriving DecidableEq, Repr

/-- A target record (R19). `dueArmed` and `deferArmed` are the model's own: the due time, or the defer-until, has not
yet given the expiry event of R57 (log entry 4). -/
structure TargetRecord where
  prism : Nat
  cls : PrismClass
  blink : Option Nat
  loadTime : Nat
  nominal : Option Grid
  fixA : Option Fix
  fixB : Option Fix
  velocity : Option Velocity
  interval : Nat
  dwell : Option Nat
  due : Nat
  misses : Nat
  lost : Bool
  state : RecordState
  deferUntil : Option Nat
  lastOutcome : Option AimOutcome
  dueArmed : Bool
  deferArmed : Bool
  deriving DecidableEq, Repr

/-! ### Sector Table -/

/-- The mode of a sector (R46). -/
inductive SectorMode where
  | opened | masked
  deriving DecidableEq, Repr

/-- A sector entry (R46). -/
structure Sector where
  mode : SectorMode
  vmin : Nat
  vmax : Nat
  block : Nat
  deriving DecidableEq, Repr

/-! ### Aim Engine -/

/-- The nine states of the Aim Engine (R73). -/
inductive EngineState where
  | stopped | waiting | slewing | acquiring | searching | centring | ranging | tracking | suspended
  deriving DecidableEq, Repr

/-- Where an attempt takes its centre from (R78). -/
inductive AttemptSource where
  | predicted | nominal
  deriving DecidableEq, Repr

/-- The aim context (R74). `awaitHz` and `awaitVt` say that the move requested of that axis has not yet been reported
ARRIVED (R77, R81). -/
structure Aim where
  slot : Nat
  prism : Nat
  planStep : Nat
  attempt : Nat
  source : AttemptSource
  centre : Angles
  centreSd : Nat
  width : Nat
  rings : Nat
  index : Nat
  dwellCount : Nat
  reslews : Nat
  sector : Option Nat
  inTolerance : Nat
  nonOwn : Nat
  mixed : Nat
  codeSeen : Bool
  lastLock : Option Nat
  ranged : Bool
  dwellDeadline : Option Nat
  nextSample : Option Nat
  latestOwn : Option Angles
  ownSince : Bool
  waitDeadline : Option Nat
  abandonDeadline : Option Nat
  awaitHz : Bool
  awaitVt : Bool
  deriving DecidableEq, Repr

/-- The suspend record (R100). -/
structure Suspension where
  slot : Nat
  prism : Nat
  state : EngineState
  attempt : Nat
  source : AttemptSource
  index : Nat
  time : Nat
  deriving DecidableEq, Repr

/-- The kinds of observation (R184). -/
inductive ObsKind where
  | lock | track | chance
  deriving DecidableEq, Repr

/-- The open observation (R87, R91). -/
structure OpenObs where
  seq : Nat
  kind : ObsKind
  prism : Nat
  lockTime : Nat
  hz : Int
  v : Int
  identified : Bool
  heldSd : Nat
  deriving DecidableEq, Repr

/-- How an observation was closed (R93). -/
inductive Closing where
  | ranged | angleOnly
  deriving DecidableEq, Repr

/-- A closed observation of the queue (R184). -/
structure Observation where
  seq : Nat
  kind : ObsKind
  prism : Nat
  lockTime : Nat
  hz : Int
  v : Int
  closing : Closing
  distance : Option Nat
  grid : Option Grid
  identified : Bool
  deriving DecidableEq, Repr

/-- The Aim Engine (R73): its state, aim context, suspend record, open observation and sequence counter (R87).
`dwelling` is what it tells the Light and Return Unit in SEARCHING (R81). -/
structure Engine where
  state : EngineState
  aim : Option Aim
  suspension : Option Suspension
  openObs : Option OpenObs
  sequence : Nat
  dwelling : Bool
  deriving DecidableEq, Repr

/-! ### Axis Drives -/

/-- The axis states, in the order of R105. -/
inductive AxisState where
  | unindexed | indexing | settling | ready | moving | fine | braked | fault
  deriving DecidableEq, Repr

/-- The fault codes, in the order of R196. -/
inductive FaultCode where
  | stall | overcurrent | limit | indexMissing
  deriving DecidableEq, Repr

/-- Where a BRAKED drive goes when the hold ends (R105). -/
inductive ReturnState where
  | settling | indexing
  deriving DecidableEq, Repr

/-- A progress interval (R118): the clock value at its beginning, and the distance to the target (MOVING) or the seek
travel (INDEXING) at its beginning. -/
structure ProgressInterval where
  begun : Nat
  mark : Nat
  deriving DecidableEq, Repr

/-- A drive's record (R105). The position is a view of `raw`, `midpoint` and `offset` (`Drive.position`, R107).
`reversed`: the VT seek has turned negative (R109). `settleEnd`: the end of the settle in progress (R112).
`known`: the encoder has been read since power-on reset (log entry 1).
`bridgeFault`: the level of the bridge fault input (R119). `outside`: the VT position is outside the hard limit and has
given its LIMIT fault (R119). `reporting`: an ARRIVED given at once by R113 that the engine has not yet taken (log
entry 8). -/
structure Drive where
  state : AxisState
  indexed : Bool
  raw : Int
  known : Bool
  target : Option Int
  pendingTarget : Option Int
  fault : Option FaultCode
  returnState : Option ReturnState
  capture : Option Int
  travel : Nat
  reversed : Bool
  offset : Option Int
  midpoint : Option Int
  settleEnd : Option Nat
  interval : Option ProgressInterval
  bridgeFault : Bool
  outside : Bool
  reporting : Bool
  deriving DecidableEq, Repr

/-! ### Light and Return Unit -/

/-- The station beam code: the two gaps in µs (R126). -/
structure BeamCode where
  gapA : Nat
  gapB : Nat
  deriving DecidableEq, Repr

/-- The emitter (R127): ON carries the fine instant at which the first mark of its pattern begins. -/
inductive Emitter where
  | off
  | on (since : Nat)
  deriving DecidableEq, Repr

/-- An identity code with its instant of completion, in µs after the window's start (R139). -/
structure CodeSeen where
  code : Nat
  done : Int
  deriving DecidableEq, Repr

/-- The window in progress (R130): its start as a fine instant, and the evidence gathered. -/
structure Window where
  start : Nat
  pulses : List Pulse
  codes : List CodeSeen
  deriving DecidableEq, Repr

/-- The class of a window (R136), in the order of R199. -/
inductive WindowClass where
  | empty | weak | own | foreign | mixed
  deriving DecidableEq, Repr

/-- A window report (R132). -/
structure WindowReport where
  cls : WindowClass
  pulseCount : Nat
  ownPairs : Nat
  foreignPairs : Nat
  dominant : Option Nat
  offsets : Option (Int × Int)
  code : Option Nat
  hz : Int
  vt : Int
  windowEnd : Nat
  deriving DecidableEq, Repr

/-- The record of the last window (R140). -/
structure LastWindow where
  report : WindowReport
  named : Option Nat
  deriving DecidableEq, Repr

/-- The Light and Return Unit. -/
structure Light where
  beam : Option BeamCode
  emitter : Emitter
  window : Option Window
  last : Option LastWindow
  deriving DecidableEq, Repr

/-! ### Site Line Controller -/

/-- The run state a PRESENCE carries (R162), in the order of R194. -/
inductive RunState where
  | paused | running | held
  deriving DecidableEq, Repr

/-- A frame of the transmit queue, with the contents fixed at its offer (R151). -/
inductive Frame where
  | presence (run : RunState) (pos : Option Grid)
  | sighting (prism : Nat) (pos : Grid) (fixTime : Nat) (quality : Nat)
  | intent (prism : Nat) (distance : Nat) (hold : Nat)
  deriving DecidableEq, Repr

/-- The receiver states (R144). -/
inductive ReceiverState where
  | idle | receiving | muted | break
  deriving DecidableEq, Repr

/-- The frame in SENDING (R155): its characters, the index of the character whose echo is awaited, and the fine instant
at which sending began. -/
structure Sending where
  chars : List Byte
  echoed : Nat
  begun : Nat
  deriving DecidableEq, Repr

/-- The transmitter (R154); SENDING_BREAK carries the fine instant of its release (R157). -/
inductive Transmitter where
  | idle
  | waitingGap
  | sending (out : Sending)
  | sendingBreak (release : Nat)
  deriving DecidableEq, Repr

/-- The Site Line Controller. `idleFrom` is the fine instant from which the line has lain at mark after its last
character or break, absent while one is on the line: the idle count of R154 is the time since (log entry 9). It lies ahead
where that instant is known: the end of the frame being sent, the end of the space after a framing error. -/
structure SiteLine where
  receiver : ReceiverState
  assembler : List Byte
  queue : List Frame
  transmitter : Transmitter
  idleFrom : Option Nat
  collision : Bool
  listenOnly : Bool
  deriving DecidableEq, Repr

/-! ### Peer Exchange -/

/-- A peer's stored intent (R159). -/
structure Intent where
  prism : Nat
  distance : Nat
  expiry : Nat
  deriving DecidableEq, Repr

/-- A record of the peer table (R159). -/
structure Peer where
  station : Nat
  lastHeard : Nat
  run : Option RunState
  pos : Option Grid
  intent : Option Intent
  deriving DecidableEq, Repr

/-- The Peer Exchange: the peer table (R159), the PRESENCE deadline (R162), the clash mark (R168), the HOLD_IN level with
its repeat deadline (R171) and the hold deadline (R170). The third source of the hold, the receiver in BREAK, is the
Site Line Controller's. -/
structure PeerExchange where
  table : List (Option Peer)
  presenceDeadline : Option Nat
  clash : Bool
  holdIn : Bool
  repeatDeadline : Option Nat
  holdDeadline : Option Nat
  deriving DecidableEq, Repr

/-! ### Command Link -/

/-- What CONFIGURE fixes for the site line (R158). Its presence is the configured mark (R181). -/
structure StationConfig where
  station : Nat
  group : Nat
  deriving DecidableEq, Repr

/-- The refusal reasons, in the order of R195. -/
inductive Reason where
  | notConfigured | alreadyConfigured | notReady | badValue | duplicate | duplicateCode | tableFull | unknownPrism
  | engineRunning | tooLate | empty | unknownCommand | sequenceError
  deriving DecidableEq, Repr

/-- The filter results of AIM_NOW (R71), in the order of R196. -/
inductive FilterFail where
  | noPrediction | tooClose | tooFar | outOfLimits | masked
  deriving DecidableEq, Repr

/-- READ_TARGET's report of a non-FREE slot (R29). -/
structure TargetReport where
  slot : Nat
  record : TargetRecord
  prediction : Option Grid
  deriving DecidableEq, Repr

/-- The aim of READ_STATUS (R190). -/
structure AimReport where
  slot : Nat
  prism : Nat
  attempt : Nat
  source : AttemptSource
  index : Nat
  sector : Option Nat
  deriving DecidableEq, Repr

/-- A drive in READ_STATUS (R190). -/
structure DriveReport where
  state : AxisState
  indexed : Bool
  position : Option Int
  fault : Option FaultCode
  deriving DecidableEq, Repr

/-- The status report (R190). -/
structure StatusReport where
  clock : Nat
  config : Option StationConfig
  listenOnly : Bool
  clash : Bool
  setup : Option Setup
  engine : EngineState
  aim : Option AimReport
  suspendedAt : Option Nat
  openSeq : Option Nat
  sequence : Nat
  forced : Option Nat
  records : Nat
  hz : DriveReport
  vt : DriveReport
  emitterOn : Bool
  last : Option LastWindow
  inForce : Bool
  holdIn : Bool
  inBreak : Bool
  holdDeadline : Option Nat
  receiver : ReceiverState
  transmitter : Nat
  queued : Nat
  observations : Nat
  events : EventSet
  deriving DecidableEq, Repr

/-- The payload of an OK answer (R196). -/
inductive Payload where
  | none
  | loaded (slot : Nat)
  | direction (hz : Int) (v : Int) (sd : Nat)
  | freeSlot (slot : Nat)
  | target (report : TargetReport)
  | sectors (items : List (Nat × Sector))
  | events (pending : EventSet)
  | drives (hz : AxisState) (hzFault : Option FaultCode) (vt : AxisState) (vtFault : Option FaultCode)
  | observation (obs : Observation)
  | status (report : StatusReport)
  | peers (clock : Nat) (items : List (Nat × Peer))
  deriving DecidableEq, Repr

/-- The answer to a command (R180): OK, REFUSED with its reason, or AIM_NOW's REFUSED BAD_VALUE with its filter result
(R71, R196). -/
inductive Answer where
  | ok (payload : Payload)
  | refused (reason : Reason)
  | aimRefused (result : Option FilterFail)
  deriving DecidableEq, Repr

/-- A response: the command code it answers, and the answer (R195). -/
structure Response where
  code : Nat
  answer : Answer
  deriving DecidableEq, Repr

/-- The Command Link: the command slot (R176), the observation queue (R185) and the event set (R187). -/
structure CommandLink where
  slot : Option Response
  observations : List Observation
  events : EventSet
  deriving DecidableEq, Repr

/-! ### The whole part -/

/-- The state of the part. `clock` is the site clock (R8) and `fine` the fine units passed since its last millisecond.
`decayDue` is the next instant of R54. `axesReadyRaised` is the mark that governs AXES_READY (R112, R125).
`choices` counts the free choices taken (Config). `pending` is the queue of commands that wait, first in first out. -/
structure State where
  clock : Nat
  fine : Nat
  setup : Option Setup
  table : List (Option TargetRecord)
  sectors : List Sector
  decayDue : Nat
  forced : Option Nat
  engine : Engine
  hz : Drive
  vt : Drive
  axesReadyRaised : Bool
  light : Light
  config : Option StationConfig
  line : SiteLine
  peers : PeerExchange
  link : CommandLink
  choices : Nat
  pending : List Instr
  deriving DecidableEq, Repr

/-- Nothing in the manual stops the part: every command and event has an effect or finds nothing to do. -/
inductive Fault where
  deriving DecidableEq, Repr

/-- Why a command has no meaning in the model. -/
inductive Refusal where
  /-- Raised by an arm of `exec` whose command is not modelled. No arm raises it. Safe: nothing can be proved of a
  refused command's effect. -/
  | notModelled (mnemonic : String)
  deriving DecidableEq, Repr

/-! ### Power-on reset -/

/-- No event pending (R187). -/
def EventSet.clear : EventSet :=
  ⟨false, false, false, false, false, false, false, false⟩

/-- An entry of the Sector Table after either reset (R46). -/
def Sector.reset : Sector := ⟨.opened, 200000, 1800000, 0⟩

/-- A drive's record after power-on reset (R105). The raw count has no reference of its own (R107):
0, not yet read, is log entry 1's. -/
def Drive.reset : Drive where
  state := .unindexed
  indexed := false
  raw := 0
  known := false
  target := none
  pendingTarget := none
  fault := none
  returnState := none
  capture := none
  travel := 0
  reversed := false
  offset := none
  midpoint := none
  settleEnd := none
  interval := none
  bridgeFault := false
  outside := false
  reporting := false

/-- The engine after either reset (R73, R104). -/
def Engine.reset : Engine := ⟨.stopped, none, none, none, 0, false⟩

/-- The Light and Return Unit after power-on reset (R141). -/
def Light.reset : Light := ⟨none, .off, none, none⟩

/-- The Site Line Controller after power-on reset (R158); the idle count begins at 0 (R154). -/
def SiteLine.reset : SiteLine := ⟨.idle, [], [], .idle, some 0, false, false⟩

/-- The Peer Exchange after power-on reset with HOLD_IN released (R175). -/
def PeerExchange.reset : PeerExchange := ⟨List.replicate 8 none, none, false, false, none, none⟩

/-- The Command Link after power-on reset (R176, R185, R187). -/
def CommandLink.reset : CommandLink := ⟨none, [], EventSet.clear⟩

/-- The part right after power-on reset, with HOLD_IN released and no command waiting. -/
def State.reset : State where
  clock := 0
  fine := 0
  setup := none
  table := List.replicate 32 none
  sectors := List.replicate 64 Sector.reset
  decayDue := 10000
  forced := none
  engine := Engine.reset
  hz := Drive.reset
  vt := Drive.reset
  axesReadyRaised := false
  light := Light.reset
  config := none
  line := SiteLine.reset
  peers := PeerExchange.reset
  link := CommandLink.reset
  choices := 0
  pending := []

end Sys2Proof.Machine
end

