-- ==== Sys2Proof/Machine/Trig.lean ====
section
/-! DEFINITION. The real functions of the Geometry Unit's arithmetic (R10, R11, R17), evaluated on whole numbers.

The manual forms each quantity as an exact real value and rounds it once. Square roots are exact here (`isqrt`). Arc
tangents, sines and cosines are carried as whole multiples of 2^-160, with an error of a few units, far below the place
where a rounding is decided (log entry 5). Every definition is a structural recursion, so it can be evaluated. -/

namespace Sys2Proof.Machine

/-- The whole number that stands for 1: 2^160. -/
def unitFix : Nat := 2 ^ 160

/-- π as a multiple of 2^-160, rounded down. -/
def piFix : Nat := 4591442807048218921384805199743311128454155024418

/-- The square root, digit by digit: `r` holds the digits above `bits`. -/
def isqrtFrom : (bits n r : Nat) → Nat
  | 0, _, r => r
  | bits + 1, n, r => if (r + 2 ^ bits) * (r + 2 ^ bits) ≤ n then isqrtFrom bits n (r + 2 ^ bits) else isqrtFrom bits n r

/-- The largest whole number whose square is at most `n`. -/
def isqrt (n : Nat) : Nat := isqrtFrom (Nat.log2 n / 2 + 1) n 0

/-- √n rounded to the nearest whole number (R10). √n is never an exact half: it is whole or irrational. -/
def nearestSqrt (n : Nat) : Nat :=
  if isqrt n * isqrt n + isqrt n < n then isqrt n + 1 else isqrt n

/-- `terms` terms of the series of arctan, from the term of `odd` on, with `power` the power of the argument of that
term and `square` the square of the argument. -/
def arctanSeries : (terms odd power square : Nat) → Int
  | 0, _, _, _ => 0
  | terms + 1, odd, power, square =>
    (power / odd : Nat) - arctanSeries terms (odd + 2) (power * square / unitFix) square

/-- tan(θ/2) from t = tan θ: t / (1 + √(1 + t²)). -/
def halveTangent (t : Nat) : Nat :=
  t * unitFix / (unitFix + isqrt (unitFix * unitFix + t * t))

/-- arctan of `t`, for `t` in 0..1: the tangent is halved three times, which brings it below 0.1. -/
def arctanFix (t : Nat) : Nat :=
  let u := halveTangent (halveTangent (halveTangent t))
  8 * (arctanSeries 26 1 u (u * u / unitFix)).toNat

/-- The angle in 0..π/4 whose tangent is √(p/q), p ≤ q, to the nearest cu. -/
def octantCu (p q : Nat) : Nat :=
  (2 * 2000000 * arctanFix (isqrt (p * (unitFix * unitFix) / q)) + piFix) / (2 * piFix)

/-- The angle in 0..π/2 whose tangent is √(p/q), to the nearest cu (R1: the factor 2,000,000/π). -/
def quadrantCu (p q : Nat) : Nat :=
  if p ≤ q then octantCu p q else 1000000 - octantCu q p

/-- `terms` terms of the alternating series of sine or cosine: each term is the one before times x² / (k(k+1)). -/
def circularSeries : (terms k term square : Nat) → Int
  | 0, _, _, _ => 0
  | terms + 1, k, term, square =>
    (term : Int) - circularSeries terms (k + 2) (term * square / unitFix / (k * (k + 1))) square

/-- The angle of `r` cu in radians. -/
def radiansFix (r : Nat) : Nat := r * piFix / 2000000

/-- sin of an angle of 0..1,000,000 cu. -/
def quadrantSin (r : Nat) : Int :=
  let x := radiansFix r
  circularSeries 32 2 x (x * x / unitFix)

/-- cos of an angle of 0..1,000,000 cu. -/
def quadrantCos (r : Nat) : Int := quadrantSin (1000000 - r)

/-- sin of an angle of whole cu. -/
def sinFix (a : Int) : Int :=
  let c := (a % 4000000).toNat
  match c / 1000000 with
  | 0 => quadrantSin c
  | 1 => quadrantCos (c - 1000000)
  | 2 => - quadrantSin (c - 2000000)
  | _ => - quadrantCos (c - 3000000)

/-- cos of an angle of whole cu. -/
def cosFix (a : Int) : Int := sinFix (a + 1000000)

/-- A multiple of 2^-320 rounded to the nearest whole number, an exact half away from zero (R17 step 4). A value within
2^-100 of a half is taken as that half: the computed value of an exact half is that near, and log entry 5 says why no
other is. -/
def roundAway (x : Int) : Int :=
  let m : Nat := (x.natAbs + 2 ^ 319 + 2 ^ 220) / 2 ^ 320
  if x < 0 then - (m : Int) else m

end Sys2Proof.Machine
end

