-- ==== Sys2Proof/Machine/Geometry.lean ====
section
/-! DEFINITION. The Geometry Unit's computations (01_circle_grid_and_clock.md). -/

namespace Sys2Proof.Machine

open Sys2Proof

/-- A full turn, in cu (R1). -/
def fullTurn : Int := 4000000

/-- A value held within a range: a smaller value becomes its low end, a larger its high end. -/
def clampInt (lo hi x : Int) : Int := if x < lo then lo else if hi < x then hi else x

/-- `clampInt` on whole numbers from 0. -/
def clampNat (lo hi x : Nat) : Nat := if x < lo then lo else if hi < x then hi else x

/-- A vertical value held within the instrument range 200,000..1,800,000 (R1). -/
def clampV (v : Int) : Int := clampInt 200000 1800000 v

/-- Reduction of a horizontal angle to 0..3,999,999 (R1). -/
def reduce (a : Int) : Int := a % fullTurn

/-- The circle difference diff(a, b) (R2). -/
def circleDiff (a b : Int) : Int := (a - b + 2000000) % fullTurn - 2000000

/-- The grid range of R4, for one coordinate. -/
def inGridRange (x : Int) : Bool := decide (-10000000 ≤ x) && decide (x ≤ 10000000)

/-- Each coordinate within the grid range (R4). -/
def gridInRange (g : Grid) : Bool := inGridRange g.e && inGridRange g.n && inGridRange g.h

/-- A coordinate held within the grid range (R17 step 5, R36). -/
def clampGrid (x : Int) : Int := clampInt (-10000000) 10000000 x

/-- The azimuth of a circle reading (R3). -/
def azimuthOf (su : Setup) (hz : Int) : Int := reduce (hz + su.o)

/-- A direction answer (R11): azimuth, reading, zenith angle and the two distances. -/
structure Direction where
  azimuth : Int
  hz : Int
  v : Int
  hd : Nat
  sd : Nat
  deriving DecidableEq, Repr

/-- The answer to a direction question (R11, R12). -/
inductive DirectionAnswer where
  | noSetup
  | tooClose
  | tooFar
  | outOfLimits
  | given (d : Direction)
  deriving DecidableEq, Repr

/-- dE² + dN² of R10. -/
def horizontalSquare (su : Setup) (p : Grid) : Nat :=
  ((p.e - su.es) * (p.e - su.es) + (p.n - su.ns) * (p.n - su.ns)).toNat

/-- dH of R10, taken from the trunnion axis. -/
def heightDiff (su : Setup) (p : Grid) : Int := p.h - (su.hs + su.hi)

/-- hd of R10. -/
def horizontalDistance (su : Setup) (p : Grid) : Nat := nearestSqrt (horizontalSquare su p)

/-- sd of R10. -/
def slopeDistance (su : Setup) (p : Grid) : Nat :=
  nearestSqrt (horizontalSquare su p + (heightDiff su p).natAbs * (heightDiff su p).natAbs)

/-- The azimuth of step 3 of R11: atan2(dE, dN) in whole cu, reduced. -/
def azimuthCu (dE dN : Int) : Int :=
  let a : Int := quadrantCu (dE.natAbs * dE.natAbs) (dN.natAbs * dN.natAbs)
  if 0 ≤ dE then
    if 0 ≤ dN then a else 2000000 - a
  else
    if 0 ≤ dN then reduce (-a) else 2000000 + a

/-- The zenith angle of step 5 of R11: atan2 of the exact horizontal distance (whose square is `n`) and dH. -/
def zenithCu (n : Nat) (dH : Int) : Int :=
  let a : Int := quadrantCu n (dH.natAbs * dH.natAbs)
  if 0 ≤ dH then a else 2000000 - a

/-- The direction question (R10 to R12). -/
def directionTo (setup : Option Setup) (p : Grid) : DirectionAnswer :=
  match setup with
  | none => .noSetup
  | some su =>
    let hd := horizontalDistance su p
    let sd := slopeDistance su p
    if hd < 2000 then .tooClose
    else if 1500000 < sd then .tooFar
    else
      let a := azimuthCu (p.e - su.es) (p.n - su.ns)
      let v := zenithCu (horizontalSquare su p) (heightDiff su p)
      if v < 200000 ∨ 1800000 < v then .outOfLimits
      else .given ⟨a, reduce (a - su.o), v, hd, sd⟩

/-- The class base U0 (R13). -/
def uncertaintyBase : PrismClass → Nat
  | .monitor => 30
  | .control => 20
  | .machine => 300

/-- The class growth G, mm per 1,000 ms (R13). -/
def uncertaintyGrowth : PrismClass → Nat
  | .monitor => 1
  | .control => 0
  | .machine => 400

/-- The uncertainty u (R13). -/
def uncertainty (cls : PrismClass) (age : Nat) : Nat :=
  uncertaintyBase cls + min age 20000 * uncertaintyGrowth cls / 1000

/-- The half-width W (R14). -/
def halfWidth (cls : PrismClass) (age sd : Nat) : Nat :=
  clampNat 150 60000 (uncertainty cls age * 636620 / sd)

/-- The ring count k (R15). -/
def ringCount (w : Nat) : Nat :=
  if w ≤ 8000 then 0 else (w - 8000 + 11999) / 12000

/-- The slew estimate t_est (R16). -/
def slewEstimate (hz v hzPosition vtPosition : Int) : Nat :=
  let h := ((circleDiff hz hzPosition).natAbs + 1499) / 1500
  let w := ((v - clampV vtPosition).natAbs + 999) / 1000
  40 + max h w

/-- One coordinate of R17: the origin plus a multiple of 2^-320, rounded and held. -/
def gridCoordinate (origin offset : Int) : Int :=
  clampGrid (roundAway (origin * (unitFix * unitFix : Nat) + offset))

/-- The grid position of an observed direction at a slope distance (R17). -/
def observationGrid (setup : Option Setup) (hz v : Int) (distance : Nat) : Option Grid :=
  setup.map fun su =>
    let a := azimuthOf su hz
    let across := distance * sinFix v
    let up := distance * cosFix v
    ⟨gridCoordinate su.es (across * sinFix a), gridCoordinate su.ns (across * cosFix a),
      gridCoordinate (su.hs + su.hi) (up * unitFix)⟩

/-- The sector of an azimuth (R45). -/
def sectorOf (azimuth : Int) : Nat := (azimuth / 62500).toNat

/-- |difference| more than W/2 on either axis, with W/2 the exact half (R14, R77, R78). -/
def beyondHalfWidth (w : Nat) (hz v hz' v' : Int) : Bool :=
  decide (w < 2 * (circleDiff hz hz').natAbs) || decide (w < 2 * (v - v').natAbs)

end Sys2Proof.Machine
end

