-- ==== Sys2Proof/Machine/Drives.lean ====
section
/-! DEFINITION. What one axis drive does with a reading, a request, a fault, the hold and the resets
(06_axis_drives.md). These operations touch the drive's own record alone. What the drive reports to other blocks is done
by the operations on the whole State that call them (Engine.lean, HoldState.lean). -/

namespace Sys2Proof.Machine

open Sys2Proof

/-- The position: present while the indexed mark is set (R105), derived from the raw count by R107. -/
def Drive.position (ax : Axis) (d : Drive) : Option Int :=
  match d.indexed, d.midpoint, d.offset with
  | true, some m, some o =>
    some (match ax with
      | .hz => reduce (d.raw - m + o)
      | .vt => d.raw - m + o)
  | _, _, _ => none

/-- The position where one is asked for. It is present whenever the engine or a settle asks (R138); 0 is never read. -/
def Drive.positionOr0 (ax : Axis) (d : Drive) : Int := (d.position ax).getD 0

/-- The distance to a target (R113). -/
def Drive.distance (ax : Axis) (d : Drive) (target : Int) : Nat :=
  match ax with
  | .hz => (circleDiff target (d.positionOr0 ax)).natAbs
  | .vt => (target - d.positionOr0 ax).natAbs

/-- The distance to the drive's own target. -/
def Drive.distanceLeft (ax : Axis) (d : Drive) : Nat :=
  match d.target with
  | some t => d.distance ax t
  | none => 0

/-- The arrival tolerance of 50 cu (R113 to R115). -/
def Drive.within (ax : Axis) (d : Drive) (target : Int) : Bool := decide (d.distance ax target ≤ 50)

/-- The VT hard limit 150,000..1,850,000 (R1, R119). -/
def withinHardLimit (v : Int) : Bool := decide (150000 ≤ v) && decide (v ≤ 1850000)

/-- The drive is the VT drive, indexed, with its position outside the hard limit (R119). -/
def Drive.beyondLimit (ax : Axis) (d : Drive) : Bool :=
  match ax, d.position .vt with
  | .vt, some p => !withinHardLimit p
  | _, _ => false

/-- The full travel of an index seek (R111). -/
def seekTravel : Axis → Nat
  | .hz => 4400000
  | .vt => 2200000

/-- The travel from the last reading of the encoder to a raw count, and `first` for the first reading since power-on
reset (R105, log entry 1). -/
def Drive.travelTo (first : Nat) (raw : Int) (d : Drive) : Nat := if d.known then (raw - d.raw).natAbs else first

/-- A reading of the encoder (R107): the raw count, the seek travel gained by it while INDEXING (R105), and the end of
`outside` when the VT position stands within the hard limit again (R119). -/
def Drive.read (ax : Axis) (first : Nat) (raw : Int) (d : Drive) : Drive :=
  let travel := if d.state = .indexing then min (seekTravel ax) (d.travel + d.travelTo first raw) else d.travel
  let moved := { d with raw := raw, known := true, travel := travel }
  { moved with outside := d.outside && moved.beyondLimit ax }

/-- A target brought into range (R113). -/
def targetInRange (ax : Axis) (t : Int) : Int :=
  match ax with
  | .hz => reduce t
  | .vt => clampV t

/-- The states in which a move or a fine adjustment is performed (R106). -/
def AxisState.performs : AxisState → Bool
  | .ready | .moving | .fine => true
  | _ => false

/-- The states in which a stop request is performed, and in which an axis is driven to a target (R116). -/
def AxisState.inMotion : AxisState → Bool
  | .moving | .fine => true
  | _ => false

/-- A move request to a target already in range, taken in READY, MOVING or FINE (R113, first two rows). -/
def Drive.moveTo (ax : Axis) (now : Nat) (t : Int) (d : Drive) : Drive :=
  if d.within ax t then
    { d with state := .ready, target := some t, interval := none, reporting := true }
  else
    { d with state := .moving, target := some t, interval := some ⟨now, d.distance ax t⟩, reporting := false }

/-- A move request (R113). -/
def Drive.move (ax : Axis) (now : Nat) (t : Int) (d : Drive) : Drive :=
  if d.state.performs then d.moveTo ax now (targetInRange ax t)
  else if d.state = .settling then { d with pendingTarget := some (targetInRange ax t) }
  else d

/-- A fine adjustment (R115): it leaves FINE at once when the drive stands within 50 cu already. -/
def Drive.adjust (ax : Axis) (t : Int) (d : Drive) : Drive :=
  if d.state.performs then
    let t' := targetInRange ax t
    { d with
      state := if d.within ax t' then .ready else .fine
      target := some t'
      interval := none
      reporting := false }
  else d

/-- A stop request (R116), at the position last read (log entry 28). -/
def Drive.stop (ax : Axis) (d : Drive) : Drive :=
  if d.state.inMotion then
    { d with state := .ready, target := some (d.positionOr0 ax), interval := none, reporting := false }
  else d

/-- Entry to INDEXING (R108): a new seek, and a new progress interval (R118). -/
def Drive.seek (now : Nat) (d : Drive) : Drive :=
  { d with
    state := .indexing
    target := none
    pendingTarget := none
    returnState := none
    fault := none
    capture := none
    travel := 0
    reversed := false
    settleEnd := none
    interval := some ⟨now, 0⟩
    reporting := false }

/-- Entry to SETTLING with the target at the position, for 150 ms (R112). -/
def Drive.settle (ax : Axis) (now : Nat) (d : Drive) : Drive :=
  { d with
    state := .settling
    target := some (d.positionOr0 ax)
    pendingTarget := none
    returnState := none
    fault := none
    settleEnd := some (now + 150)
    interval := none
    reporting := false }

/-- Entry to BRAKED (R108, R122, R123). -/
def Drive.brake (ret : ReturnState) (d : Drive) : Drive :=
  { d with
    state := .braked
    target := none
    pendingTarget := none
    returnState := some ret
    fault := none
    settleEnd := none
    interval := none
    reporting := false }

/-- A fault taken by the drive (R120): discarded in FAULT. -/
def Drive.takeFault (code : FaultCode) (d : Drive) : Drive :=
  if d.state = .fault then d
  else
    { d with
      state := .fault
      fault := some code
      target := none
      pendingTarget := none
      returnState := none
      capture := none
      travel := 0
      settleEnd := none
      interval := none
      reporting := false }

/-- CONFIGURE at the drive (R108, R181): the index offset, and the seek of an UNINDEXED drive. -/
def Drive.configure (offset : Int) (held : Bool) (now : Nat) (d : Drive) : Drive :=
  let d' := { d with offset := some offset }
  if d.state = .unindexed then
    if held then d'.brake .indexing else d'.seek now
  else d'

/-- The hold comes into force (R123). -/
def Drive.holdStart (d : Drive) : Drive :=
  match d.state with
  | .moving | .fine | .ready | .settling => d.brake .settling
  | .indexing => { d.brake .indexing with capture := none, travel := 0 }
  | .unindexed | .braked | .fault => d

/-- The hold ends (R124); a drive that settles does so at the position last read (log entry 28). -/
def Drive.holdEnd (ax : Axis) (now : Nat) (d : Drive) : Drive :=
  if d.state = .braked then
    match d.returnState with
    | some .indexing => d.seek now
    | _ => d.settle ax now
  else d

/-- CLEAR_FAULT at the drive (R122), before the test of its bridge fault input; it settles at the position last read (log
entry 28). -/
def Drive.clearFault (ax : Axis) (held : Bool) (now : Nat) (d : Drive) : Drive :=
  if d.state = .fault then
    if d.indexed = true ∧ d.fault ≠ some .indexMissing then
      if held then d.brake .settling else d.settle ax now
    else
      let d' := { d with indexed := false, midpoint := none, outside := false }
      if held then d'.brake .indexing else d'.seek now
  else d

/-- The RESET command at the drive (R125), with the raw count at which a braked axis comes to rest (log entry 16). -/
def Drive.resetCommand (ax : Axis) (now : Nat) (rest : Int) (d : Drive) : Drive :=
  match d.state with
  | .ready | .moving | .fine => (d.read ax 0 rest).settle ax now
  | .settling => { d with pendingTarget := none }
  | .unindexed | .indexing | .braked | .fault => d

/-- A drive in MOVING within 50 cu of its target arrives (R114). -/
def Drive.arrives (ax : Axis) (d : Drive) : Bool :=
  decide (d.state = .moving) && decide (d.distanceLeft ax ≤ 50)

/-- Arrival of a move or of a fine adjustment: READY, with the target unchanged (R114, R115). -/
def Drive.arrive (d : Drive) : Drive := { d with state := .ready, interval := none, reporting := false }

/-- The VT seek has travelled to its reversal (R109). -/
def Drive.reverses (d : Drive) : Bool :=
  decide (d.state = .indexing) && !d.reversed && decide (550000 ≤ d.travel)

/-- The reversal of the VT seek (R109). -/
def Drive.reverse (now : Nat) (d : Drive) : Drive :=
  { d with reversed := true, capture := none, interval := some ⟨now, d.travel⟩ }

/-- What a progress interval measures: the distance left, or the seek travel (R118). -/
def Drive.progressMeasure (ax : Axis) (d : Drive) : Nat :=
  if d.state = .indexing then d.travel else d.distanceLeft ax

/-- The progress made over an interval (R118). It may be negative while MOVING. -/
def Drive.progress (ax : Axis) (iv : ProgressInterval) (d : Drive) : Int :=
  if d.state = .indexing then (d.travel : Int) - iv.mark else (iv.mark : Int) - d.distanceLeft ax

/-- A progress interval that has run its 200 ms (R118). -/
def Drive.intervalOver (now : Nat) (d : Drive) : Option ProgressInterval :=
  match d.interval with
  | some iv =>
    if (d.state = .moving ∨ d.state = .indexing) ∧ iv.begun + 200 ≤ now then some iv else none
  | none => none

/-- The end of a settle is due (R112). -/
def Drive.settleOver (now : Nat) (d : Drive) : Bool :=
  decide (d.state = .settling) &&
    match d.settleEnd with
    | some t => decide (t ≤ now)
    | none => false

/-- The end of a settle: READY, or the pending move (R112). -/
def Drive.endSettle (ax : Axis) (now : Nat) (d : Drive) : Drive :=
  let d' := { d with state := .ready, settleEnd := none, pendingTarget := none }
  match d.pendingTarget with
  | some t => d'.moveTo ax now t
  | none => d'

/-- An edge of the index input during INDEXING (R110): a rising edge is captured; a falling edge with a capture gives the
midpoint, rounded down. -/
def Drive.edgePair (rising : Bool) (raw : Int) (d : Drive) : Option Int :=
  if d.state = .indexing ∧ rising = false then d.capture.map fun c => (c + raw) / 2 else none

/-- The index is set (R110, steps 2 to 5). -/
def Drive.setIndex (ax : Axis) (mid : Int) (now : Nat) (d : Drive) : Drive :=
  { d with indexed := true, midpoint := some mid, capture := none }.settle ax now

/-- Brake engaged (R106). -/
def Drive.brakeEngaged (d : Drive) : Bool :=
  match d.state with
  | .unindexed | .braked | .fault => true
  | _ => false

/-- The direction in which a drive turns its axis: positive (1), negative (-1) or neither. A seek follows R108 and R109,
a move and a fine adjustment R113. -/
def Drive.turns (ax : Axis) (d : Drive) : Int :=
  match d.state, d.target with
  | .indexing, _ => if d.reversed then -1 else 1
  | _, none => 0
  | _, some t =>
    match ax with
    | .hz => (circleDiff t (d.positionOr0 ax)).sign
    | .vt => (t - d.positionOr0 ax).sign

/-- The seek rate in cu per millisecond (R108). -/
def seekRate : Int := 200

/-- The motor bridge of a drive (R106): off, driven at a seek rate with its sign, holding the target, or driving to it in
a direction. -/
inductive Bridge where
  | off
  | seeking (rate : Int)
  | holding
  | driving (direction : Int)
  deriving DecidableEq, Repr

/-- The bridge output (R106): off exactly where the brake is engaged; a seek turns at the seek rate (R108), negative after
the reversal of the VT seek (R109). How far the axis then turns is the encoder's to say. -/
def Drive.bridge (ax : Axis) (d : Drive) : Bridge :=
  match d.state with
  | .unindexed | .braked | .fault => .off
  | .indexing => .seeking (seekRate * d.turns ax)
  | .settling | .ready => .holding
  | .moving | .fine => .driving (d.turns ax)

end Sys2Proof.Machine
end

