-- ==== Sys2Proof/Machine/Flags.lean ====
section
/-! DEFINITION. The event set (R187, R189) and the output pins that are views of the state: attention (R188), READY
(R176) and FAULT_OUT (R121). -/

namespace Sys2Proof.Machine

open Sys2Proof

/-- The eight events, in the order of R187. -/
inductive EventMark where
  | observation | queueFull | targetLost | axisFault | holdChanged | stationClash | axesReady | forcedDropped
  deriving DecidableEq, Repr

/-- The event set with a mark set (R187). -/
def setMark (m : EventMark) (e : EventSet) : EventSet :=
  match m with
  | .observation => { e with observation := true }
  | .queueFull => { e with queueFull := true }
  | .targetLost => { e with targetLost := true }
  | .axisFault => { e with axisFault := true }
  | .holdChanged => { e with holdChanged := true }
  | .stationClash => { e with stationClash := true }
  | .axesReady => { e with axesReady := true }
  | .forcedDropped => { e with forcedDropped := true }

/-- The event set without the marks named (R189). -/
def clearMarks (named e : EventSet) : EventSet where
  observation := e.observation && !named.observation
  queueFull := e.queueFull && !named.queueFull
  targetLost := e.targetLost && !named.targetLost
  axisFault := e.axisFault && !named.axisFault
  holdChanged := e.holdChanged && !named.holdChanged
  stationClash := e.stationClash && !named.stationClash
  axesReady := e.axesReady && !named.axesReady
  forcedDropped := e.forcedDropped && !named.forcedDropped

/-- Some mark is set. -/
def anyMark (e : EventSet) : Bool :=
  e.observation || e.queueFull || e.targetLost || e.axisFault || e.holdChanged || e.stationClash || e.axesReady ||
    e.forcedDropped

/-- The event byte, bit 0 to bit 7 in the order of R187 (R196). -/
def eventByte (e : EventSet) : Nat :=
  e.observation.toNat + 2 * e.queueFull.toNat + 4 * e.targetLost.toNat + 8 * e.axisFault.toNat +
    16 * e.holdChanged.toNat + 32 * e.stationClash.toNat + 64 * e.axesReady.toNat + 128 * e.forcedDropped.toNat

/-- The events an event byte names (R196). -/
def eventsOfByte (n : Nat) : EventSet :=
  ⟨n.testBit 0, n.testBit 1, n.testBit 2, n.testBit 3, n.testBit 4, n.testBit 5, n.testBit 6, n.testBit 7⟩

/-- An event is raised at the Command Link (R187). -/
def State.raise (m : EventMark) (s : State) : State :=
  { s with link := { s.link with events := setMark m s.link.events } }

/-- The attention output (R188). -/
def State.attention (s : State) : Bool := anyMark s.link.events

/-- The READY output (R176). -/
def State.readyOut (s : State) : Bool := s.link.slot.isSome

/-- The FAULT_OUT pin (R121). -/
def State.faultOut (s : State) : Bool := decide (s.hz.state = .fault) || decide (s.vt.state = .fault)

end Sys2Proof.Machine
end

