-- ==== Sys2Proof/Machine/Frames.lean ====
section
/-! DEFINITION. Site-line frames: their characters, their check and the tests of a received one (R143, R147, R148, R192
to R194), and the placing of an offered frame in the transmit queue (R152). -/

namespace Sys2Proof.Machine

open Sys2Proof

/-! ### Values in bytes (R192) -/

/-- A whole number in `k` bytes, most significant first, taken modulo 256^k. -/
def bytesOf : (k : Nat) → (v : Nat) → List Byte
  | 0, _ => []
  | k + 1, v => Byte.ofNat (v / 256 ^ k) :: bytesOf k v

/-- A signed number in two's complement over `k` bytes. -/
def signedBytes (k : Nat) (v : Int) : List Byte := bytesOf k (v % (256 ^ k : Nat)).toNat

/-- The whole number that bytes carry, most significant first. -/
def natOf (bs : List Byte) : Nat := bs.foldl (fun acc b => acc * 256 + b.toNat) 0

/-- The signed number that bytes carry in two's complement. -/
def intOf (bs : List Byte) : Int :=
  let v := natOf bs
  if 2 * v < 256 ^ bs.length then v else (v : Int) - (256 ^ bs.length : Nat)

/-- `len` bytes from offset `at_`. -/
def slice (bs : List Byte) (at_ len : Nat) : List Byte := (bs.drop at_).take len

/-- A grid position in 12 bytes. -/
def gridBytes (g : Grid) : List Byte := signedBytes 4 g.e ++ signedBytes 4 g.n ++ signedBytes 4 g.h

/-- The grid position in the 12 bytes from offset `at_`. -/
def gridAt (bs : List Byte) (at_ : Nat) : Grid :=
  ⟨intOf (slice bs at_ 4), intOf (slice bs (at_ + 4) 4), intOf (slice bs (at_ + 8) 4)⟩

/-! ### The check (R148) -/

/-- One character taken into (S1, S2). -/
def checkStep (s : Nat × Nat) (c : Byte) : Nat × Nat :=
  let s1 := (s.1 + c.toNat) % 251
  (s1, (s.2 + s1) % 251)

/-- S1 and S2 over the characters of a frame before its check. -/
def checkOf (chars : List Byte) : Nat × Nat := chars.foldl checkStep (0, 0)

/-- The characters with their check after them. -/
def withCheck (chars : List Byte) : List Byte :=
  chars ++ [Byte.ofNat (checkOf chars).1, Byte.ofNat (checkOf chars).2]

/-- The last two characters agree with the check of those before them (R147 step 3). -/
def checkAgrees (chars : List Byte) : Bool :=
  let body := chars.take (chars.length - 2)
  (chars.drop (chars.length - 2)).map (·.toNat) == [(checkOf body).1, (checkOf body).2]

/-! ### Sending (R151, R155, R194) -/

/-- The code of a run state (R194). -/
def runStateCode : RunState → Nat
  | .paused => 1
  | .running => 2
  | .held => 3

/-- The kind of a frame (R194). -/
def frameKind : Frame → Nat
  | .presence .. => 1
  | .sighting .. => 2
  | .intent .. => 3

/-- The first character of a frame (R143, R194). -/
def firstChar (group kind : Nat) : Byte := Byte.ofNat (group * 16 + kind)

/-- The age a SIGHTING carries (R151). -/
def sentAge (now fixTime : Nat) : Nat := min (now - fixTime) 65535

/-- The fields of a frame after the sender, in characters (R194), for sending at clock value `now`. -/
def frameFields (now : Nat) : Frame → List Byte
  | .presence run pos =>
    Byte.ofNat (runStateCode run + if pos.isSome then 128 else 0) :: gridBytes (pos.getD ⟨0, 0, 0⟩)
  | .sighting prism pos fixTime quality =>
    Byte.ofNat prism :: (gridBytes pos ++ bytesOf 2 (sentAge now fixTime) ++ [Byte.ofNat quality])
  | .intent prism distance hold => Byte.ofNat prism :: (bytesOf 3 distance ++ bytesOf 2 hold)

/-- The characters of a frame, check included (R155, R194). -/
def frameChars (cfg : StationConfig) (now : Nat) (f : Frame) : List Byte :=
  withCheck (firstChar cfg.group (frameKind f) :: Byte.ofNat cfg.station :: frameFields now f)

/-! ### Receiving (R147, R193, R194) -/

/-- The site group a first character carries. -/
def groupOf (c : Byte) : Nat := c.toNat / 16

/-- The kind a first character carries. -/
def kindOf (c : Byte) : Nat := c.toNat % 16

/-- The length of a frame of a kind, check included (R143); none for an unknown kind. -/
def lengthOfKind : Nat → Option Nat
  | 1 => some 17
  | 2 => some 20
  | 3 => some 10
  | _ => none

/-- The contents of a valid received frame. -/
inductive Received where
  | presence (run : RunState) (pos : Option Grid)
  | sighting (prism : Nat) (pos : Grid) (quality age : Nat)
  | intent (prism distance hold : Nat)
  deriving DecidableEq, Repr

/-- The run state a code names (R194). -/
def runStateOfCode : Nat → Option RunState
  | 1 => some .paused
  | 2 => some .running
  | 3 => some .held
  | _ => none

/-- Step 5 of R147: the fields of a frame, when all are within range. `chars` is the whole frame. -/
def fieldsOf (chars : List Byte) : Option Received :=
  let pos := gridAt chars 3
  let id := natOf (slice chars 2 1)
  match kindOf (chars.headD 0) with
  | 1 =>
    if gridInRange pos then
      (runStateOfCode (id % 16)).map fun run => .presence run (if 128 ≤ id then some pos else none)
    else none
  | 2 =>
    let quality := natOf (slice chars 17 1)
    if 1 ≤ id ∧ id ≤ 250 ∧ gridInRange pos ∧ quality ≤ 15 then
      some (.sighting id pos quality (natOf (slice chars 15 2)))
    else none
  | 3 =>
    let distance := natOf (slice chars 3 3)
    if 1 ≤ id ∧ id ≤ 250 ∧ 2000 ≤ distance ∧ distance ≤ 1500000 then
      some (.intent id distance (natOf (slice chars 6 2)))
    else none
  | _ => none

/-- What the validation of a received frame comes to (R147). -/
inductive Validation where
  | discarded
  | clash
  | valid (sender : Nat) (frame : Received)
  deriving DecidableEq, Repr

/-- The tests of a received frame (R147), in order. -/
def validate (cfg : StationConfig) (chars : List Byte) : Validation :=
  let first := chars.headD 0
  let sender := natOf (slice chars 1 1)
  if groupOf first ≠ cfg.group then .discarded
  else if lengthOfKind (kindOf first) ≠ some chars.length then .discarded
  else if !checkAgrees chars then .discarded
  else if sender = cfg.station then .clash
  else if sender < 1 ∨ 15 < sender then .discarded
  else
    match fieldsOf chars with
    | some r => .valid sender r
    | none => .discarded

/-! ### The transmit queue (R152) -/

/-- The frame is a SIGHTING. -/
def Frame.isSighting : Frame → Bool
  | .sighting .. => true
  | _ => false

/-- The offered frame `f` takes the place of the queued frame `g` (rows 2 to 4 of R152). -/
def Frame.replaces (f g : Frame) : Bool :=
  match f, g with
  | .sighting p _ _ _, .sighting q _ _ _ => decide (p = q)
  | .intent .., .intent .. => true
  | .presence .., .presence .. => true
  | _, _ => false

/-- The queue with the first frame that `f` takes the place of replaced by it. -/
def replaceFrame (f : Frame) : List Frame → List Frame
  | [] => []
  | g :: gs => if f.replaces g then f :: gs else g :: replaceFrame f gs

/-- The queue without the SIGHTING nearest the head. -/
def dropSighting : List Frame → List Frame
  | [] => []
  | g :: gs => if g.isSighting then gs else g :: dropSighting gs

/-- Rows 2 to 7 of R152. -/
def placeFrame (f : Frame) (queue : List Frame) : List Frame :=
  if queue.any f.replaces then replaceFrame f queue
  else if queue.length < 4 then queue ++ [f]
  else if queue.any Frame.isSighting then dropSighting queue ++ [f]
  else queue

end Sys2Proof.Machine
end

