-- ==== Sys2Proof/Machine/Targets.lean ====
section
/-! DEFINITION. What one target record does with a load, an edit, a fix, an outcome and a defer (02_the_target_table.md),
and its prediction. These operations touch the record alone. -/

namespace Sys2Proof.Machine

open Sys2Proof

/-- The class named by a class code (R196). -/
def classOfCode : Nat → Option PrismClass
  | 1 => some .machine
  | 2 => some .monitor
  | 3 => some .control
  | _ => none

/-- An interval held within its class's range (R24). -/
def holdInterval (cls : PrismClass) (interval : Nat) : Nat :=
  match cls with
  | .machine => clampNat 100 60000 interval
  | .monitor | .control => clampNat 10000 86400000 interval

/-- A dwell held within 0..5,000 for MACHINE; not stored for the other classes (R24). -/
def holdDwell (cls : PrismClass) (dwell : Nat) : Option Nat :=
  match cls with
  | .machine => some (min dwell 5000)
  | .monitor | .control => none

/-- The record an accepted LOAD_TARGET makes (R23). -/
def loadedRecord (now : Nat) (cls : PrismClass) (a : LoadArgs) : TargetRecord where
  prism := a.prism
  cls := cls
  blink := if cls = .machine then some a.blink else none
  loadTime := now
  nominal := a.nominal
  fixA := none
  fixB := none
  velocity := none
  interval := holdInterval cls a.interval
  dwell := holdDwell cls a.dwell
  due := now
  misses := 0
  lost := false
  state := .idle
  deferUntil := none
  lastOutcome := none
  dueArmed := true
  deferArmed := false

/-- An accepted EDIT_TARGET (R25). -/
def TargetRecord.edit (a : EditArgs) (r : TargetRecord) : TargetRecord :=
  { r with
    interval := holdInterval r.cls a.interval
    dwell := if r.cls = .machine then holdDwell r.cls a.dwell else r.dwell
    nominal := a.nominal }

/-- SET_STATION clears the fixes and the velocity (R7). -/
def TargetRecord.clearFixes (r : TargetRecord) : TargetRecord :=
  { r with fixA := none, fixB := none, velocity := none }

/-- A due time written into the record. -/
def TargetRecord.setDue (t : Nat) (r : TargetRecord) : TargetRecord := { r with due := t, dueArmed := true }

/-- A defer-until written into the record. -/
def TargetRecord.setDefer (t : Nat) (r : TargetRecord) : TargetRecord :=
  { r with deferUntil := some t, deferArmed := true }

/-- The defer-until removed from the record. -/
def TargetRecord.dropDefer (r : TargetRecord) : TargetRecord :=
  { r with deferUntil := none, deferArmed := false }

/-! ### Fixes and velocity -/

/-- One velocity component (R35). -/
def velocityComponent (a b : Int) (gap : Nat) : Int := clampInt (-8000) 8000 (((a - b) * 1000).tdiv gap)

/-- The velocity after a change of fix A (R35). -/
def velocityOf (cls : PrismClass) (fixA fixB : Option Fix) : Option Velocity :=
  match cls, fixA, fixB with
  | .machine, some a, some b =>
    let gap := a.time - b.time
    if 8 ≤ a.quality ∧ 8 ≤ b.quality ∧ 100 ≤ gap ∧ gap ≤ 5000 then
      some ⟨velocityComponent a.pos.e b.pos.e gap, velocityComponent a.pos.n b.pos.n gap,
        velocityComponent a.pos.h b.pos.h gap⟩
    else none
  | _, _, _ => none

/-- A fix offered to the record (R31): `none` when it is discarded. -/
def TargetRecord.takeFix (f : Fix) (r : TargetRecord) : Option TargetRecord :=
  match r.fixA with
  | none => some { r with fixA := some f, fixB := none, velocity := velocityOf r.cls (some f) none }
  | some a =>
    if a.time < f.time then
      some { r with fixA := some f, fixB := some a, velocity := velocityOf r.cls (some f) (some a) }
    else none

/-- The fix a peer's report makes (R34); `none` when the report is discarded. -/
def peerFix (cls : PrismClass) (station : Nat) (pos : Grid) (quality age received : Nat) : Option Fix :=
  if cls = .control ∨ quality < 9 ∨ 5000 < age then none
  else some ⟨pos, received - age, .peer station, quality - 1⟩

/-- The due time after a peer fix has become fix A (R42). -/
def TargetRecord.dueAfterPeerFix (f : Fix) (r : TargetRecord) : TargetRecord :=
  if r.cls = .machine ∧ r.due < f.time + r.interval then r.setDue (f.time + r.interval) else r

/-! ### Prediction -/

/-- One predicted coordinate (R36). -/
def predictCoordinate (x v : Int) (span : Nat) : Int := clampGrid (x + (v * span).tdiv 1000)

/-- The prediction of the record for the time `t` (R36). -/
def TargetRecord.prediction (t : Nat) (r : TargetRecord) : Option Grid :=
  match r.fixA, r.velocity with
  | none, _ => r.nominal
  | some a, none => some a.pos
  | some a, some v =>
    let span := min (t - a.time) 2000
    some ⟨predictCoordinate a.pos.e v.e span, predictCoordinate a.pos.n v.n span, predictCoordinate a.pos.h v.h span⟩

/-- The age of the record's uncertainty (R13). -/
def TargetRecord.age (now : Nat) (r : TargetRecord) : Nat :=
  match r.fixA with
  | some a => now - a.time
  | none => now - r.loadTime

/-- W for a direction of the record at slope distance `sd` (R14). -/
def TargetRecord.widthAt (now sd : Nat) (r : TargetRecord) : Nat := halfWidth r.cls (r.age now) sd

/-! ### Outcomes and defers -/

/-- The retry delay of a MISSED outcome (R39). -/
def retryDelay : PrismClass → Nat
  | .machine => 1000
  | .monitor | .control => 5000

/-- The lost interval of a MISSED outcome (R39). -/
def lostInterval : PrismClass → Nat
  | .machine => 30000
  | .monitor | .control => 600000

/-- The misses after a MISSED outcome (R39). -/
def TargetRecord.missesAfter (r : TargetRecord) : Nat := min (r.misses + 1) 4

/-- Step 2 of R37: due time, misses and lost flag (R38 to R41). `lockTime` is the last lock of the aim, `ranged` its
ranged mark. -/
def TargetRecord.applyOutcome (now lockTime : Nat) (ranged : Bool) (o : AimOutcome) (r : TargetRecord) : TargetRecord :=
  match o with
  | .observed =>
    if ranged then { r.setDue (lockTime + r.interval) with misses := 0, lost := false }
    else r.setDue (lockTime + min r.interval 60000)
  | .missed =>
    if r.missesAfter < 4 then { r.setDue (now + retryDelay r.cls) with misses := r.missesAfter }
    else { r.setDue (now + lostInterval r.cls) with misses := r.missesAfter, lost := true }
  | .trackLost => r.setDue now
  | .unreachable _ => r.setDue (now + 10000)
  | .yielded | .aborted | .retired | .abandoned | .faulted => r

/-- The later of a present defer-until, if any, and a defer time (R37 step 3, R43). -/
def laterDefer (present : Option Nat) (t : Nat) : Nat :=
  match present with
  | some p => max p t
  | none => t

/-- Step 4 of R37: the record leaves ACTIVE. -/
def TargetRecord.leaveActive (now : Nat) (r : TargetRecord) : TargetRecord :=
  match r.deferUntil with
  | some t => if now < t then { r with state := .deferred } else { r.dropDefer with state := .idle }
  | none => { r.dropDefer with state := .idle }

/-- The record written at the end of an aim (R37). -/
def TargetRecord.endAim (now lockTime : Nat) (ranged : Bool) (o : AimOutcome) (deferTime : Option Nat)
    (r : TargetRecord) : TargetRecord :=
  let r1 := { r.applyOutcome now lockTime ranged o with lastOutcome := some o }
  let r2 := match deferTime with
    | some t => r1.setDefer (laterDefer r1.deferUntil t)
    | none => r1
  r2.leaveActive now

/-- The marking of a due record that fails a geometric test at selection (R41, R62). -/
def TargetRecord.markUnreachable (now : Nat) (why : UnreachableReason) (r : TargetRecord) : TargetRecord :=
  { r.setDue (now + 10000) with lastOutcome := some (.unreachable why) }

/-- A DEFERRED record whose defer-until has come returns to IDLE (R44). -/
def TargetRecord.returnIdle (r : TargetRecord) : TargetRecord := { r.dropDefer with state := .idle }

/-- A defer request on a record that is not to be ended YIELDED (R43): rows IDLE, DEFERRED, and ACTIVE in SUSPENDED. -/
def TargetRecord.takeDefer (now t : Nat) (r : TargetRecord) : TargetRecord :=
  match r.state with
  | .idle => if now < t then { r.setDefer t with state := .deferred } else r
  | .deferred | .active => r.setDefer (laterDefer r.deferUntil t)

/-- The target's blink code is the window's code: otherwise the code is a wrong one (R82). -/
def TargetRecord.codeMatches (code : Nat) (r : TargetRecord) : Bool :=
  decide (r.cls = .machine) && decide (r.blink = some code)

end Sys2Proof.Machine
end

