-- ==== Sys2Proof/Machine/Windows.lean ====
section
/-! DEFINITION. The classification of a return window (07_tracking_light_and_return_windows.md): pairing, pair counts,
class, spot offsets and identity code. Instants are in µs after the window's start. -/

namespace Sys2Proof.Machine

open Sys2Proof

/-- The length of a window: eight periods of 188 µs (R130). -/
def windowLength : Nat := 1504

/-- The station beam code (R126). -/
def beamCode (station : Nat) : BeamCode := ⟨16 + 4 * station, 160 - 4 * station⟩

/-- The pulse starts within the window (R133). -/
def Pulse.startsInWindow (p : Pulse) : Bool := decide (0 ≤ p.start) && decide (p.start < windowLength)

/-- The pulse ended within the window (R134): a window does not hold the instant of its end (R133). -/
def Pulse.endsInWindow (p : Pulse) : Bool := decide (p.stop < windowLength)

/-- The station whose gap A a measured gap matches within 1 µs (R134). The bands of two stations do not overlap (R126). -/
def matchingStation (gap : Int) : Option Nat :=
  (List.range 15).map (· + 1) |>.find? fun m => decide ((gap - (16 + 4 * m : Nat)).natAbs ≤ 1)

/-- The station of the pair that P and a later Q would form (R134): Q starts after P ends, and the gap matches. -/
def pairStation (p q : Pulse) : Option Nat :=
  if p.stop < q.start then matchingStation (q.start - p.stop) else none

/-- A pair: the station and its two pulses (R134). -/
structure PulsePair where
  station : Nat
  one : Pulse
  two : Pulse
  deriving DecidableEq, Repr

/-- Insertion of a pulse into a list in the order of start instants, after those that start no later. DESIGN CHOICE (log
entry 6): R134 orders the pulses by their start instants and gives no order for two that start at the same instant; they
are taken in the order in which they were told. -/
def insertPulse (p : Pulse) : List Pulse → List Pulse
  | [] => [p]
  | q :: qs => if p.start < q.start then p :: q :: qs else q :: insertPulse p qs

/-- The pulses in the order of their start instants. -/
def sortPulses (ps : List Pulse) : List Pulse := ps.foldl (fun acc p => insertPulse p acc) []

/-- The first pulse of the list that pairs with P: its station, the pulse, and the list without it (R134). -/
def takePartner (p : Pulse) : List Pulse → Option (Nat × Pulse × List Pulse)
  | [] => none
  | q :: qs =>
    match pairStation p q with
    | some m => some (m, q, qs)
    | none => (takePartner p qs).map fun r => (r.1, r.2.1, q :: r.2.2)

/-- The pairs of a list of free pulses in start order (R134). `fuel` is at least the number of pulses. -/
def pairPulses : (fuel : Nat) → List Pulse → List PulsePair
  | 0, _ => []
  | _ + 1, [] => []
  | fuel + 1, p :: ps =>
    match takePartner p ps with
    | some (m, q, rest) => ⟨m, p, q⟩ :: pairPulses fuel rest
    | none => pairPulses fuel ps

/-- The pairs of a window (R134). -/
def windowPairs (pulses : List Pulse) : List PulsePair :=
  pairPulses pulses.length (sortPulses (pulses.filter fun p => Pulse.startsInWindow p && Pulse.endsInWindow p))

/-- The number of pairs for a station. -/
def pairsOf (m : Nat) (pairs : List PulsePair) : Nat := pairs.countP fun p => p.station == m

/-- The foreign pairs of a window for the station number `own` (R135). -/
def foreignPairs (own : Nat) (pairs : List PulsePair) : List PulsePair := pairs.filter fun p => p.station != own

/-- The lowest of the station numbers 1..`m` that has the most pairs, and that most; (0, 0) when none has a pair. -/
def mostPairs (pairs : List PulsePair) : Nat → Nat × Nat
  | 0 => (0, 0)
  | m + 1 =>
    let best := mostPairs pairs m
    if best.2 < pairsOf (m + 1) pairs then (m + 1, pairsOf (m + 1) pairs) else best

/-- The dominant foreign station (R135). -/
def dominantForeign (own : Nat) (pairs : List PulsePair) : Option Nat :=
  let best := mostPairs (foreignPairs own pairs) 15
  if best.2 = 0 then none else some best.1

/-- The class of a window from its pulse count and its held pair counts (R136). -/
def classify (pulseCount own foreign : Nat) : WindowClass :=
  if pulseCount = 0 then .empty
  else if 5 ≤ own ∧ foreign ≤ 1 then .own
  else if 5 ≤ foreign ∧ own ≤ 1 then .foreign
  else if 2 ≤ own ∧ 2 ≤ foreign then .mixed
  else .weak

/-- A quotient rounded to the nearest whole number, an exact half to the even neighbour (R137). -/
def roundHalfEven (num : Int) (den : Nat) : Int :=
  let q := num / den
  let twice := 2 * (num % den)
  if twice < den then q
  else if (den : Int) < twice then q + 1
  else if q % 2 = 0 then q else q + 1

/-- One spot offset: the mean of the pulses' offsets, rounded, held within ±2,000 (R137). -/
def spotOffset (offsets : List Int) : Int :=
  if offsets.isEmpty then 0 else clampInt (-2000) 2000 (roundHalfEven offsets.sum offsets.length)

/-- The pulses of the own pairs, both of each (R137). -/
def ownPulses (own : Nat) (pairs : List PulsePair) : List Pulse :=
  (pairs.filter fun p => p.station == own).flatMap fun p => [p.one, p.two]

/-- The identity code a window keeps: the last completed in it (R139). Of two codes at one instant the one given last. -/
def keptCode (codes : List CodeSeen) : Option Nat :=
  (codes.foldl
    (fun (best : Option CodeSeen) c =>
      if 0 ≤ c.done ∧ c.done < (windowLength : Int) then
        match best with
        | some b => if b.done ≤ c.done then some c else best
        | none => some c
      else best)
    none).map CodeSeen.code

/-- The report of a window (R132 to R139), from the station number, the evidence, the latched angles and the clock. -/
def windowReport (own : Nat) (pulses : List Pulse) (codes : List CodeSeen) (hz vt : Int) (now : Nat) : WindowReport :=
  let pairs := windowPairs pulses
  let count := pulses.countP Pulse.startsInWindow
  let ownCount := min 8 (pairsOf own pairs)
  let foreignCount := min 8 (foreignPairs own pairs).length
  let cls := classify count ownCount foreignCount
  let used := ownPulses own pairs
  { cls := cls
    pulseCount := count
    ownPairs := ownCount
    foreignPairs := foreignCount
    dominant := dominantForeign own pairs
    offsets := if cls = .own ∨ cls = .mixed then
        some (spotOffset (used.map (·.dx)), spotOffset (used.map (·.dy)))
      else none
    code := if cls = .own then keptCode codes else none
    hz := hz
    vt := vt
    windowEnd := now }

/-- The evidence that belongs to the window after one that ends (R133, R139), its instants counted from the new start. -/
def carriedPulses (pulses : List Pulse) : List Pulse :=
  (pulses.filter fun p => decide ((windowLength : Int) ≤ p.start)).map fun p =>
    { p with start := p.start - windowLength, stop := p.stop - windowLength }

/-- The codes that belong to the window after one that ends (R139). -/
def carriedCodes (codes : List CodeSeen) : List CodeSeen :=
  (codes.filter fun c => decide ((windowLength : Int) ≤ c.done)).map fun c => { c with done := c.done - windowLength }

end Sys2Proof.Machine
end

