-- ==== Sys2Proof/Machine/Ops.lean ====
section
/-! DEFINITION. The named operations on the whole State that the commands share: records, sectors and drives by name,
the hold in force, frames offered to the site line, observations given to the queue, and the emitter. -/

namespace Sys2Proof.Machine

open Sys2Proof

/-! ### Time -/

/-- The fine units of one millisecond: 1,000 µs of 72 units. -/
def finePerMs : Nat := 72000

/-- The fine units of one microsecond. -/
def finePerUs : Nat := 72

/-- The fine units of one bit time of 1/115,200 s (R142). -/
def finePerBit : Nat := 625

/-- The fine units of one character time, 11 bit times (R142). -/
def finePerChar : Nat := 11 * finePerBit

/-- The present instant, in fine units since power-on reset. -/
def State.instant (s : State) : Nat := s.clock * finePerMs + s.fine

/-- A deadline that is present and that the clock has reached (R9). -/
def expired (deadline : Option Nat) (now : Nat) : Bool :=
  match deadline with
  | some t => decide (t ≤ now)
  | none => false

/-! ### Tables -/

/-- The record in a slot; none when it is FREE (or no slot has the number). -/
def State.record (i : Nat) (s : State) : Option TargetRecord := (s.table[i]?).getD none

/-- A slot written. -/
def State.setRecord (i : Nat) (r : Option TargetRecord) (s : State) : State := { s with table := s.table.set i r }

/-- The record carries the prism id. -/
def carries (prism : Nat) (o : Option TargetRecord) : Bool :=
  match o with
  | some r => r.prism == prism
  | none => false

/-- The slot of the non-FREE record that carries a prism id. -/
def State.slotOf (prism : Nat) (s : State) : Option Nat := s.table.findIdx? (carries prism)

/-- The MACHINE record carries the blink code. -/
def carriesCode (code : Nat) (o : Option TargetRecord) : Bool :=
  match o with
  | some r => r.codeMatches code
  | none => false

/-- The prism whose MACHINE record carries an identity code (R30). -/
def State.prismOfCode (code : Nat) (s : State) : Option Nat :=
  match s.table.find? (carriesCode code) with
  | some (some r) => some r.prism
  | _ => none

/-- The number of non-FREE records. -/
def State.recordCount (s : State) : Nat := s.table.countP Option.isSome

/-- A sector entry (R47). -/
def State.sector (i : Nat) (s : State) : Sector := s.sectors.getD i Sector.reset

/-! ### Drives -/

/-- A drive by name. -/
def State.drive (ax : Axis) (s : State) : Drive :=
  match ax with
  | .hz => s.hz
  | .vt => s.vt

/-- A drive's record written. -/
def State.setDrive (ax : Axis) (d : Drive) (s : State) : State :=
  match ax with
  | .hz => { s with hz := d }
  | .vt => { s with vt := d }

/-- A drive's record changed. -/
def State.onDrive (ax : Axis) (f : Drive → Drive) (s : State) : State := s.setDrive ax (f (s.drive ax))

/-- The encoder reading where the command carries none (log entries 10 and 16). -/
def State.freeReading (ax : Axis) (s : State) : Int :=
  match ax with
  | .hz => Config.hzReading s.choices
  | .vt => Config.vtReading s.choices

/-- The seek travel up to the first reading of an encoder since power-on reset (log entry 1). -/
def State.firstTravel (ax : Axis) (s : State) : Nat :=
  match ax with
  | .hz => Config.hzFirstTravel s.choices
  | .vt => Config.vtFirstTravel s.choices

/-- A free value of this index has been taken. -/
def State.tookChoice (s : State) : State := { s with choices := s.choices + 1 }

/-- The other axis. -/
def otherAxis : Axis → Axis
  | .hz => .vt
  | .vt => .hz

/-- Both axes stand READY. -/
def State.bothReady (s : State) : Bool := decide (s.hz.state = .ready) && decide (s.vt.state = .ready)

/-- The axis positions as angles. -/
def State.axes (s : State) : Angles := ⟨s.hz.positionOr0 .hz, s.vt.positionOr0 .vt⟩

/-! ### The site hold -/

/-- The site hold is in force while any of its three sources holds (R169). -/
def State.held (s : State) : Bool :=
  s.peers.holdIn || decide (s.line.receiver = .break) || s.peers.holdDeadline.isSome

/-! ### The engine's state as others read it -/

/-- The seven aim states (R73). -/
def EngineState.isAim : EngineState → Bool
  | .stopped | .waiting => false
  | _ => true

/-- The states in which windows are made (R73, R130). -/
def EngineState.makesWindows : EngineState → Bool
  | .acquiring | .searching | .centring | .ranging | .tracking => true
  | _ => false

/-- The states in which axes are moved for an aim that is not suspended (R97, R98). -/
def EngineState.isRunningAim (e : EngineState) : Bool := e.isAim && decide (e ≠ .suspended)

/-! ### The emitter -/

/-- The current azimuth (R128): absent without a setup or a HZ position. -/
def State.currentAzimuth (s : State) : Option Int :=
  match s.setup, s.hz.position .hz with
  | some su, some p => some (azimuthOf su p)
  | _, _ => none

/-- The engine's state calls for light (R128, first row). -/
def Engine.wantsLight (e : Engine) : Bool :=
  match e.state with
  | .acquiring | .centring | .ranging | .tracking => true
  | .searching => e.dwelling
  | _ => false

/-- The current azimuth lies in an OPEN sector (R128, last row). -/
def State.skyOpen (s : State) : Bool :=
  match s.currentAzimuth with
  | some a => decide ((s.sector (sectorOf a)).mode = .opened)
  | none => false

/-- All conditions of R128 hold. -/
def State.lightAllowed (s : State) : Bool :=
  s.engine.wantsLight && !s.held && !s.faultOut && s.light.beam.isSome && s.skyOpen

/-- The next period boundary at or after an instant, for a window begun at `start` (R127). -/
def nextBoundary (start now : Nat) : Nat :=
  let period := 188 * finePerUs
  start + (now - start + period - 1) / period * period

/-- The emitter follows R128 (R129): it turns OFF at once, and its pattern begins at a period boundary (R127). -/
def State.followLight (s : State) : State :=
  if s.lightAllowed then
    match s.light.emitter with
    | .on _ => s
    | .off =>
      let start := match s.light.window with
        | some w => w.start
        | none => s.instant
      { s with light := { s.light with emitter := .on (nextBoundary start s.instant) } }
  else { s with light := { s.light with emitter := .off } }

/-- The emitter is ON. -/
def Emitter.isOn : Emitter → Bool
  | .off => false
  | .on _ => true

/-- The emitter drive at a fine instant (R127): the two marks of the pattern, counted from the pattern's first mark. -/
def Light.drives (l : Light) (now : Nat) : Bool :=
  match l.emitter, l.beam with
  | .on since, some b =>
    let t := (now - since) % (188 * finePerUs)
    decide (since ≤ now) &&
      (decide (t < 6 * finePerUs) ||
        (decide ((6 + b.gapA) * finePerUs ≤ t) && decide (t < (12 + b.gapA) * finePerUs)))
  | _, _ => false

/-- A new window begins now, with no evidence (R130). -/
def State.beginWindow (s : State) : State := { s with light := { s.light with window := some ⟨s.instant, [], []⟩ } }

/-- No window is in progress (R130). -/
def State.dropWindow (s : State) : State := { s with light := { s.light with window := none } }

/-- The engine enters a state (R73), not dwelling. The window assembler follows: a window begins on entry to a window
state from another state, goes on between window states, and is discarded on leaving them (R130). The emitter goes
OFF on an entry to a state that wants no light. -/
def State.enter (e : EngineState) (s : State) : State :=
  let s1 := { s with engine := { s.engine with state := e, dwelling := false } }
  let s2 :=
    if e.makesWindows then
      if s.engine.state.makesWindows ∧ s.light.window.isSome then s1 else s1.beginWindow
    else s1.dropWindow
  if s1.engine.wantsLight then s2 else { s2 with light := { s2.light with emitter := .off } }

/-- Dwelling begins in SEARCHING: the window in progress is discarded and a new one begins (R81, R130). -/
def State.beginDwell (s : State) : State :=
  { s with engine := { s.engine with dwelling := true } }.beginWindow

/-! ### The site line -/

/-- The access gap in character times (R154). -/
def accessGap (station : Nat) (collision : Bool) : Nat := 3 + station + if collision then 20 else 0

/-- The idle count in fine units (R154): 0 while a character or a break is on the line. -/
def State.idleTime (s : State) : Nat :=
  match s.line.idleFrom with
  | some t => s.instant - t
  | none => 0

/-- The transmitter's state after its work: WAITING_GAP when the queue holds a frame, else IDLE (R155 to R157). -/
def SiteLine.rest (l : SiteLine) : SiteLine :=
  { l with transmitter := if l.queue.isEmpty then .idle else .waitingGap }

/-- A frame is offered to the transmit queue (R152); an IDLE transmitter waits for the gap when it joins (R154). -/
def State.offerFrame (f : Frame) (s : State) : State :=
  if s.line.listenOnly ∨ s.config = none then s
  else
    let line := { s.line with queue := placeFrame f s.line.queue }
    { s with line := if line.transmitter = .idle then line.rest else line }

/-- A break request (R157). -/
def State.requestBreak (s : State) : State :=
  match s.line.transmitter with
  | .sendingBreak _ => s
  | _ =>
    { s with
      line := { s.line with
        transmitter := .sendingBreak (s.instant + 48 * finePerBit)
        idleFrom := none } }

/-! ### Observations and fixes -/

/-- A closed observation is given to the queue (R185). -/
def State.giveObservation (o : Observation) (s : State) : State :=
  if s.link.observations.length < 16 then
    let s1 := { s with link := { s.link with observations := s.link.observations ++ [o] } }
    if s.link.observations.isEmpty then s1.raise .observation else s1
  else s.raise .queueFull

/-- An own fix is offered to the record of a prism (R31, R32); a ranged one that becomes fix A of a MACHINE or MONITOR
record gives a SIGHTING (R33). -/
def State.offerOwnFix (prism : Nat) (f : Fix) (s : State) : State :=
  match s.slotOf prism with
  | none => s
  | some i =>
    match s.record i with
    | none => s
    | some r =>
      match r.takeFix f with
      | none => s
      | some r' =>
        let s1 := s.setRecord i (some r')
        if f.quality = 15 ∧ r.cls ≠ .control then s1.offerFrame (.sighting prism f.pos f.time 15) else s1

/-- The block-count change of an outcome (R52). -/
def blockAfter (o : AimOutcome) (c : Nat) : Nat :=
  match o with
  | .missed => min (c + 1) 15
  | .observed => c - 4
  | _ => c

/-- The block count of a sector changed by an outcome (R52). -/
def State.changeBlock (o : AimOutcome) (sector : Nat) (s : State) : State :=
  { s with sectors := s.sectors.modify sector fun e => { e with block := blockAfter o e.block } }

end Sys2Proof.Machine
end

