-- ==== Sys2Proof/Machine/Layouts.lean ====
section
/-! DEFINITION. The bytes of a response (11_layouts.md, R192, R195 to R199). -/

namespace Sys2Proof.Machine

open Sys2Proof

/-- One byte of a small number. -/
def byte1 (n : Nat) : List Byte := [Byte.ofNat n]

/-- An optional number, 0 when absent (R192). -/
def orZero (o : Option Nat) : Nat := o.getD 0

/-- A presence byte or bytes: bit i is set when the i-th flag is. -/
def flagBits : List Bool → Nat
  | [] => 0
  | b :: bs => b.toNat + 2 * flagBits bs

/-- An optional grid position in 12 bytes, 0 when absent. -/
def optGridBytes (g : Option Grid) : List Byte := gridBytes (g.getD ⟨0, 0, 0⟩)

/-- The code of a class (R196). -/
def classCode : PrismClass → Nat
  | .machine => 1
  | .monitor => 2
  | .control => 3

/-- The code of a record state (R198). -/
def recordStateCode : RecordState → Nat
  | .idle => 1
  | .active => 2
  | .deferred => 3

/-- The code of an outcome (R198). -/
def outcomeCode : AimOutcome → Nat
  | .observed => 1
  | .missed => 2
  | .trackLost => 3
  | .yielded => 4
  | .aborted => 5
  | .retired => 6
  | .abandoned => 7
  | .faulted => 8
  | .unreachable _ => 9

/-- The code of an outcome's reason (R198). -/
def reasonCode : AimOutcome → Nat
  | .unreachable .tooClose => 1
  | .unreachable .tooFar => 2
  | .unreachable .masked => 3
  | .unreachable .outOfLimits => 4
  | _ => 0

/-- The code of a mode (R196). -/
def modeCode : SectorMode → Nat
  | .opened => 1
  | .masked => 2

/-- The code of an axis state (R196). -/
def axisStateCode : AxisState → Nat
  | .unindexed => 1
  | .indexing => 2
  | .settling => 3
  | .ready => 4
  | .moving => 5
  | .fine => 6
  | .braked => 7
  | .fault => 8

/-- The code of a fault, 0 for absent (R196). -/
def faultCode : Option FaultCode → Nat
  | none => 0
  | some .stall => 1
  | some .overcurrent => 2
  | some .limit => 3
  | some .indexMissing => 4

/-- The code of an engine state (R199). -/
def engineStateCode : EngineState → Nat
  | .stopped => 1
  | .waiting => 2
  | .slewing => 3
  | .acquiring => 4
  | .searching => 5
  | .centring => 6
  | .ranging => 7
  | .tracking => 8
  | .suspended => 9

/-- The code of an attempt source (R199). -/
def attemptSourceCode : AttemptSource → Nat
  | .predicted => 1
  | .nominal => 2

/-- The code of a receiver state (R199). -/
def receiverCode : ReceiverState → Nat
  | .idle => 1
  | .receiving => 2
  | .muted => 3
  | .break => 4

/-- The code of a transmitter state (R199). -/
def transmitterCode : Transmitter → Nat
  | .idle => 1
  | .waitingGap => 2
  | .sending _ => 3
  | .sendingBreak _ => 4

/-- The code of a window class (R199). -/
def windowClassCode : WindowClass → Nat
  | .empty => 1
  | .weak => 2
  | .own => 3
  | .foreign => 4
  | .mixed => 5

/-- The code of an observation kind (R197). -/
def obsKindCode : ObsKind → Nat
  | .lock => 1
  | .track => 2
  | .chance => 3

/-- The code of a closing (R197). -/
def closingCode : Closing → Nat
  | .ranged => 1
  | .angleOnly => 2

/-- The response code of a refusal reason (R195). -/
def refusalCode : Reason → Nat
  | .notConfigured => 2
  | .alreadyConfigured => 3
  | .notReady => 4
  | .badValue => 5
  | .duplicate => 6
  | .duplicateCode => 7
  | .tableFull => 8
  | .unknownPrism => 9
  | .engineRunning => 10
  | .tooLate => 11
  | .empty => 12
  | .unknownCommand => 13
  | .sequenceError => 14

/-- The filter result byte (R196). -/
def filterCode : Option FilterFail → Nat
  | none => 0
  | some .noPrediction => 1
  | some .tooClose => 2
  | some .tooFar => 3
  | some .outOfLimits => 4
  | some .masked => 5

/-- A fix in 20 bytes, 0 when absent (R198). -/
def fixBytes (f : Option Fix) : List Byte :=
  match f with
  | none => bytesOf 20 0
  | some f =>
    gridBytes f.pos ++ bytesOf 6 f.time ++
      byte1 (match f.source with | .own => 0 | .peer n => n) ++ byte1 f.quality

/-- The target record, 104 bytes (R198). -/
def targetBytes (t : TargetReport) : List Byte :=
  let r := t.record
  byte1 t.slot ++ byte1 (recordStateCode r.state) ++ byte1 r.prism ++ byte1 (classCode r.cls) ++
    bytesOf 2 (flagBits [r.blink.isSome, r.nominal.isSome, r.fixA.isSome, r.fixB.isSome, r.velocity.isSome,
      r.dwell.isSome, r.deferUntil.isSome, r.lastOutcome.isSome, t.prediction.isSome, r.lost]) ++
    byte1 (orZero r.blink) ++ bytesOf 6 r.loadTime ++ optGridBytes r.nominal ++ fixBytes r.fixA ++ fixBytes r.fixB ++
    (match r.velocity with
      | some v => signedBytes 2 v.e ++ signedBytes 2 v.n ++ signedBytes 2 v.h
      | none => bytesOf 6 0) ++
    bytesOf 4 r.interval ++ bytesOf 2 (orZero r.dwell) ++ bytesOf 6 r.due ++ byte1 r.misses ++
    bytesOf 6 (orZero r.deferUntil) ++ byte1 ((r.lastOutcome.map outcomeCode).getD 0) ++
    byte1 ((r.lastOutcome.map reasonCode).getD 0) ++ optGridBytes t.prediction

/-- The observation record, 35 bytes (R197). -/
def observationBytes (o : Observation) : List Byte :=
  bytesOf 2 o.seq ++ byte1 (obsKindCode o.kind) ++ byte1 o.prism ++ bytesOf 6 o.lockTime ++ bytesOf 4 o.hz.toNat ++
    bytesOf 4 o.v.toNat ++ byte1 (closingCode o.closing) ++
    byte1 (flagBits [o.distance.isSome, o.grid.isSome, o.identified]) ++ bytesOf 3 (orZero o.distance) ++
    optGridBytes o.grid

/-- A sector of READ_SECTOR, 9 bytes (R196). -/
def sectorBytes (x : Nat × Sector) : List Byte :=
  byte1 x.1 ++ byte1 (modeCode x.2.mode) ++ bytesOf 3 x.2.vmin ++ bytesOf 3 x.2.vmax ++ byte1 x.2.block

/-- A record of READ_PEERS, 32 bytes (R199). -/
def peerBytes (x : Nat × Peer) : List Byte :=
  let p := x.2
  byte1 x.1 ++ byte1 p.station ++ bytesOf 6 p.lastHeard ++ byte1 (flagBits [p.run.isSome, p.pos.isSome, p.intent.isSome]) ++
    byte1 ((p.run.map runStateCode).getD 0) ++ optGridBytes p.pos ++ byte1 ((p.intent.map Intent.prism).getD 0) ++
    bytesOf 3 ((p.intent.map Intent.distance).getD 0) ++ bytesOf 6 ((p.intent.map Intent.expiry).getD 0)

/-- A drive of READ_STATUS, 7 bytes (R199). -/
def driveBytes (d : DriveReport) : List Byte :=
  byte1 (axisStateCode d.state) ++ byte1 d.indexed.toNat ++ signedBytes 4 (d.position.getD 0) ++ byte1 (faultCode d.fault)

/-- The record of the last window, 27 bytes (R199). -/
def lastWindowBytes (l : LastWindow) : List Byte :=
  let r := l.report
  byte1 (windowClassCode r.cls) ++ bytesOf 2 (min r.pulseCount 65535) ++ byte1 r.ownPairs ++ byte1 r.foreignPairs ++
    byte1 (flagBits [r.dominant.isSome, r.offsets.isSome, r.code.isSome]) ++ byte1 (orZero r.dominant) ++
    signedBytes 2 (r.offsets.getD (0, 0)).1 ++ signedBytes 2 (r.offsets.getD (0, 0)).2 ++ byte1 (orZero r.code) ++
    bytesOf 4 r.hz.toNat ++ signedBytes 4 r.vt ++ bytesOf 6 r.windowEnd ++ byte1 (orZero l.named)

/-- The aim items of READ_STATUS from the aim byte to the suspension time, 13 bytes (R199). -/
def aimBytes (r : StatusReport) : List Byte :=
  byte1 (flagBits [r.aim.isSome, (r.aim.bind AimReport.sector).isSome, r.suspendedAt.isSome, r.openSeq.isSome]) ++
    (match r.aim with
      | some a =>
        byte1 a.slot ++ byte1 a.prism ++ byte1 a.attempt ++ byte1 (attemptSourceCode a.source) ++ byte1 a.index ++
          byte1 (orZero a.sector)
      | none => bytesOf 6 0) ++
    bytesOf 6 (orZero r.suspendedAt)

/-- The status report, 103 bytes (R199). -/
def statusBytes (r : StatusReport) : List Byte :=
  bytesOf 6 r.clock ++ byte1 (flagBits [r.config.isSome, r.listenOnly, r.clash]) ++
    byte1 ((r.config.map StationConfig.station).getD 0) ++ byte1 ((r.config.map StationConfig.group).getD 0) ++
    (match r.setup with
      | some u => byte1 1 ++ signedBytes 4 u.es ++ signedBytes 4 u.ns ++ signedBytes 4 u.hs ++ bytesOf 2 u.hi ++
          bytesOf 4 u.o.toNat
      | none => bytesOf 19 0) ++
    byte1 (engineStateCode r.engine) ++ aimBytes r ++ bytesOf 2 (orZero r.openSeq) ++ bytesOf 2 r.sequence ++
    byte1 (orZero r.forced) ++ byte1 r.records ++ driveBytes r.hz ++ driveBytes r.vt ++ byte1 r.emitterOn.toNat ++
    byte1 r.last.isSome.toNat ++
    (match r.last with
      | some l => lastWindowBytes l
      | none => bytesOf 27 0) ++
    byte1 (flagBits [r.inForce, r.holdIn, r.inBreak, r.holdDeadline.isSome]) ++ bytesOf 6 (orZero r.holdDeadline) ++
    byte1 (receiverCode r.receiver) ++ byte1 r.transmitter ++ byte1 r.queued ++ byte1 r.observations ++
    byte1 (eventByte r.events)

/-- The payload of an OK answer (R196). -/
def payloadBytes : Payload → List Byte
  | .none => []
  | .loaded slot => byte1 slot
  | .direction hz v sd => bytesOf 4 hz.toNat ++ bytesOf 4 v.toNat ++ bytesOf 3 sd
  | .freeSlot slot => byte1 slot ++ byte1 0
  | .target t => targetBytes t
  | .sectors items => byte1 items.length ++ items.flatMap sectorBytes
  | .events e => byte1 (eventByte e)
  | .drives hz hzFault vt vtFault =>
    byte1 (axisStateCode hz) ++ byte1 (faultCode hzFault) ++ byte1 (axisStateCode vt) ++ byte1 (faultCode vtFault)
  | .observation o => observationBytes o
  | .status r => statusBytes r
  | .peers clock items => bytesOf 6 clock ++ byte1 items.length ++ items.flatMap peerBytes

/-- The response code of an answer (R195). -/
def answerCode : Answer → Nat
  | .ok _ => 1
  | .refused why => refusalCode why
  | .aimRefused _ => refusalCode .badValue

/-- The payload of an answer (R196). -/
def answerPayload : Answer → List Byte
  | .ok p => payloadBytes p
  | .refused _ => []
  | .aimRefused f => byte1 (filterCode f)

/-- The response frame (R195). -/
def responseBytes (r : Response) : List Byte :=
  byte1 r.code ++ byte1 (answerCode r.answer) ++ bytesOf 2 (answerPayload r.answer).length ++ answerPayload r.answer

/-- The not-ready frame (R195). -/
def notReadyBytes : List Byte := bytesOf 4 0

/-- What the host gets when it clocks out `count` bytes (R179, R196): the response, then zeros; or the not-ready frame.
DESIGN CHOICE: R196 gives the zeros past the end of a response alone, and the model gives them past the fourth byte of
the not-ready frame too (log entry 27). -/
def State.hostReads (s : State) (count : Nat) : List Byte :=
  let frame := match s.link.slot with
    | some r => responseBytes r
    | none => notReadyBytes
  (frame ++ List.replicate count 0).take count

end Sys2Proof.Machine
end

