-- ==== Sys2Proof/Machine/Selection.lean ====
section
/-! DEFINITION. Target selection (04_target_selection.md): the filter, the score and order, the forced step, the ordinary
pass and the hand-over. -/

namespace Sys2Proof.Machine

open Sys2Proof

/-- A record that passes the filter, with what it carries into scoring and hand-over (R61). -/
structure Candidate where
  slot : Nat
  record : TargetRecord
  direction : Direction
  sector : Nat
  block : Nat
  deriving DecidableEq, Repr

/-- What the filter finds of a record (R61). -/
inductive FilterResult where
  | passes (d : Direction)
  | fails (why : FilterFail)
  deriving DecidableEq, Repr

/-- The filter of R61, applied to a record at the clock value `now`. Without a setup the direction question has no answer
(R12), which no test asks about (R57 needs the engine running; R71 tests the setup first): the record is as one without
prediction. -/
def State.filter (s : State) (r : TargetRecord) : FilterResult :=
  match r.prediction s.clock with
  | none => .fails .noPrediction
  | some p =>
    match directionTo s.setup p with
    | .noSetup => .fails .noPrediction
    | .tooClose => .fails .tooClose
    | .tooFar => .fails .tooFar
    | .outOfLimits => .fails .outOfLimits
    | .given d =>
      let e := s.sector (sectorOf d.azimuth)
      if e.mode = .masked then .fails .masked
      else if d.v < e.vmin ∨ (e.vmax : Int) < d.v then .fails .masked
      else .passes d

/-- The reason with which a failing step marks a record; step 1 marks none (R61, R62). -/
def FilterFail.reason : FilterFail → Option UnreachableReason
  | .noPrediction => none
  | .tooClose => some .tooClose
  | .tooFar => some .tooFar
  | .outOfLimits => some .outOfLimits
  | .masked => some .masked

/-- The candidate a passing record makes. -/
def State.candidate (s : State) (slot : Nat) (r : TargetRecord) (d : Direction) : Candidate :=
  ⟨slot, r, d, sectorOf d.azimuth, (s.sector (sectorOf d.azimuth)).block⟩

/-! ### Score and order -/

/-- The class weight Wc (R65). -/
def classWeight : PrismClass → Nat
  | .machine => 16
  | .control => 4
  | .monitor => 2

/-- The class rank of R67: a smaller rank goes first. -/
def classRank : PrismClass → Nat
  | .machine => 0
  | .control => 1
  | .monitor => 2

/-- t_est of a candidate (R65 step 2). -/
def Candidate.slew (axes : Angles) (c : Candidate) : Nat := slewEstimate c.direction.hz c.direction.v axes.hz axes.v

/-- The score S (R65). -/
def Candidate.score (now : Nat) (axes : Angles) (c : Candidate) : Int :=
  ((classWeight c.record.cls * min (now - c.record.due) 60000 : Nat) : Int) - (8 * c.slew axes : Nat) -
    (2000 * c.block : Nat)

/-- Candidate `a` comes before candidate `b` in the order of R67. -/
def Candidate.before (now : Nat) (axes : Angles) (a b : Candidate) : Bool :=
  if a.score now axes ≠ b.score now axes then decide (b.score now axes < a.score now axes)
  else if classRank a.record.cls ≠ classRank b.record.cls then decide (classRank a.record.cls < classRank b.record.cls)
  else if a.slew axes ≠ b.slew axes then decide (a.slew axes < b.slew axes)
  else decide (a.record.prism < b.record.prism)

/-- The first candidate of a list in the order of R67. -/
def firstCandidate (now : Nat) (axes : Angles) : List Candidate → Option Candidate
  | [] => none
  | c :: cs =>
    match firstCandidate now axes cs with
    | none => some c
    | some b => if b.before now axes c then some b else some c

/-! ### Looking at a record -/

/-- What an ordinary look leaves of a record, and the candidate it makes, if any (R60, R62). -/
structure Looked where
  record : TargetRecord
  candidate : Option Candidate
  deriving DecidableEq, Repr

/-- The filter applied to an IDLE record in the ordinary pass (R60 last two rows, R62). -/
def State.lookIdle (s : State) (slot : Nat) (r : TargetRecord) : Looked :=
  if s.clock < r.due then ⟨r, none⟩
  else
    match s.filter r with
    | .passes d => ⟨r, some (s.candidate slot r d)⟩
    | .fails why =>
      match why.reason with
      | some reason => ⟨r.markUnreachable s.clock reason, none⟩
      | none => ⟨r, none⟩

/-- A DEFERRED record whose defer-until has come (R44). -/
def TargetRecord.deferOver (now : Nat) (r : TargetRecord) : Bool :=
  decide (r.state = .deferred) &&
    match r.deferUntil with
    | some t => decide (t ≤ now)
    | none => true

/-- The ordinary pass looks at one record (R60). -/
def State.look (s : State) (slot : Nat) (r : TargetRecord) : Looked :=
  match r.state with
  | .active => ⟨r, none⟩
  | .deferred => if r.deferOver s.clock then s.lookIdle slot r.returnIdle else ⟨r, none⟩
  | .idle => s.lookIdle slot r

/-- The records after the ordinary pass, from slot `i` on (R59 step 2). -/
def State.lookedTable (s : State) : (i : Nat) → List (Option TargetRecord) → List (Option TargetRecord)
  | _, [] => []
  | i, o :: os => (o.map fun r => (s.look i r).record) :: s.lookedTable (i + 1) os

/-- The candidates of the ordinary pass, from slot `i` on (R59 step 2). -/
def State.lookedCandidates (s : State) : (i : Nat) → List (Option TargetRecord) → List Candidate
  | _, [] => []
  | i, o :: os => (o.bind fun r => (s.look i r).candidate).toList ++ s.lookedCandidates (i + 1) os

/-! ### Hand-over -/

/-- A move request to both axes, whose ARRIVED reports the engine awaits (R76, R77, R79, R81, R103). -/
def State.moveAxes (t : Angles) (s : State) : State :=
  let s1 := (s.onDrive .hz (Drive.move .hz s.clock t.hz)).onDrive .vt (Drive.move .vt s.clock t.v)
  { s1 with engine := { s1.engine with
      aim := s1.engine.aim.map fun a => { a with awaitHz := true, awaitVt := true } } }

/-- The aim context created at hand-over (R76). -/
def newAim (now slot : Nat) (r : TargetRecord) (d : Direction) : Aim :=
  let w := r.widthAt now d.sd
  { slot := slot
    prism := r.prism
    planStep := if r.fixA.isSome then 1 else 2
    attempt := 1
    source := if r.fixA.isSome then .predicted else .nominal
    centre := ⟨d.hz, d.v⟩
    centreSd := d.sd
    width := w
    rings := ringCount w
    index := 0
    dwellCount := 0
    reslews := 0
    sector := none
    inTolerance := 0
    nonOwn := 0
    mixed := 0
    codeSeen := false
    lastLock := none
    ranged := false
    dwellDeadline := none
    nextSample := none
    latestOwn := none
    ownSince := false
    waitDeadline := none
    abandonDeadline := none
    awaitHz := false
    awaitVt := false }

/-- The INTENT given at the hand-over of a MACHINE record (R69). -/
def State.offerIntent (r : TargetRecord) (sd : Nat) (s : State) : State :=
  if r.cls = .machine then s.offerFrame (.intent r.prism sd (r.dwell.getD 0 + 1000)) else s

/-- The hand-over (R68, R69, R76): the record becomes ACTIVE and the engine slews to the direction. -/
def State.handOver (slot : Nat) (r : TargetRecord) (d : Direction) (s : State) : State :=
  let s1 := s.setRecord slot (some { r with state := .active })
  let s2 := { s1.enter .slewing with engine := { (s1.enter .slewing).engine with aim := some (newAim s.clock slot r d) } }
  (s2.offerIntent r d.sd).moveAxes ⟨d.hz, d.v⟩

/-! ### The selection -/

/-- Steps 2 to 4 of a selection (R59). -/
def State.ordinaryPass (s : State) : State :=
  let s1 := { s with table := s.lookedTable 0 s.table }
  match firstCandidate s.clock s.axes (s.lookedCandidates 0 s.table) with
  | some c => s1.handOver c.slot c.record c.direction
  | none => s1

/-- The forced-aim slot emptied without a hand-over (R63, R64). -/
def State.dropForced (s : State) : State := { s with forced := none }.raise .forcedDropped

/-- The forced step on an IDLE record (R63, last three rows). -/
def State.forcedIdle (slot : Nat) (r : TargetRecord) (s : State) : State :=
  match s.filter r with
  | .passes d => { s with forced := none }.handOver slot r d
  | .fails _ => s.dropForced.ordinaryPass

/-- A selection: the forced step (R63), then the ordinary pass (R59). -/
def State.selection (s : State) : State :=
  match s.forced with
  | none => s.ordinaryPass
  | some prism =>
    match s.slotOf prism with
    | none => s.dropForced.ordinaryPass
    | some i =>
      match s.record i with
      | none => s.dropForced.ordinaryPass
      | some r =>
        match r.state with
        | .active => s.ordinaryPass
        | .deferred =>
          if r.deferOver s.clock then (s.setRecord i (some r.returnIdle)).forcedIdle i r.returnIdle
          else s.ordinaryPass
        | .idle => s.forcedIdle i r

/-- A selection is made when the engine is WAITING and the site hold is not in force (R57). -/
def State.select (s : State) : State :=
  if s.engine.state = .waiting ∧ s.held = false then s.selection else s

/-- The engine enters WAITING, which makes a selection (R57, R95). -/
def State.enterWaiting (s : State) : State := (s.enter .waiting).select

end Sys2Proof.Machine
end

