-- ==== Sys2Proof/Machine/Engine.lean ====
section
/-! DEFINITION. The Aim Engine's operations (05_the_aim_engine.md): observations, the ending of an aim, the slew, the
attempts and their search positions, the windows, and suspension. -/

namespace Sys2Proof.Machine

open Sys2Proof

/-- The aim context changed, when there is one. -/
def State.onAim (f : Aim → Aim) (s : State) : State :=
  { s with engine := { s.engine with aim := s.engine.aim.map f } }

/-- The engine's counters cleared (R74): OWN-in-tolerance, non-own and MIXED. -/
def Aim.clearCounters (a : Aim) : Aim := { a with inTolerance := 0, nonOwn := 0, mixed := 0 }

/-- The counters, the code-seen mark and the OWN-since-sample mark cleared (R74). -/
def Aim.clearMarks (a : Aim) : Aim := { a.clearCounters with codeSeen := false, ownSince := false }

/-- The timers of the aim cancelled, and any move still awaited (R95, R100). -/
def Aim.cancelTimers (a : Aim) : Aim :=
  { a with dwellDeadline := none, nextSample := none, waitDeadline := none, awaitHz := false, awaitVt := false }

/-! ### Observations -/

/-- The quality of an own fix (R32). -/
def ownQuality : Closing → Nat
  | .ranged => 15
  | .angleOnly => 6

/-- The engine holds no open observation (R93). -/
def State.dropOpen (s : State) : State := { s with engine := { s.engine with openObs := none } }

/-- The closed observation that the open one makes (R93, R184). -/
def closedObservation (o : OpenObs) (closing : Closing) (range : Option Nat) (grid : Option Grid) : Observation :=
  ⟨o.seq, o.kind, o.prism, o.lockTime, o.hz, o.v, closing, range, grid, o.identified⟩

/-- The own fix of a closed observation offered to its record (R93 step 4, R32). -/
def State.offerClosedFix (o : OpenObs) (closing : Closing) (grid : Option Grid) (s : State) : State :=
  match grid with
  | some g => s.offerOwnFix o.prism ⟨g, o.lockTime, .own, ownQuality closing⟩
  | none => s

/-- How a closing at a slope distance, or at none, is named (R93 step 1). -/
def closingOf (range : Option Nat) : Closing := if range.isSome then .ranged else .angleOnly

/-- The open observation closed (R93) at a slope distance: that of RANGE, or none for the held one. `offersFix` is false
for a closing caused by a retirement (R99). -/
def State.closeObservation (range : Option Nat) (offersFix : Bool) (s : State) : State :=
  match s.engine.openObs with
  | none => s
  | some o =>
    let grid := observationGrid s.setup o.hz o.v (range.getD o.heldSd)
    let s1 := s.dropOpen.giveObservation (closedObservation o (closingOf range) range grid)
    let s2 := if offersFix then s1.offerClosedFix o (closingOf range) grid else s1
    if range.isSome then s2.onAim fun a => { a with ranged := true } else s2

/-- The next sequence number taken (R87). -/
def nextSequence (n : Nat) : Nat := (n + 1) % 65536

/-- The slope distance held by an observation at its opening (R87, R91): that of the prediction at now, or the centre's. -/
def State.heldDistance (s : State) (a : Aim) : Nat :=
  match (s.record a.slot).bind fun r => r.prediction s.clock with
  | none => a.centreSd
  | some p =>
    match directionTo s.setup p with
    | .given d => d.sd
    | _ => a.centreSd

/-- An observation opened on the aim's prism (R87, R91). -/
def State.openObservation (kind : ObsKind) (at_ : Angles) (s : State) : State :=
  match s.engine.aim with
  | none => s
  | some a =>
    { s with engine := { s.engine with
        openObs := some ⟨s.engine.sequence, kind, a.prism, s.clock, at_.hz, at_.v, a.codeSeen, s.heldDistance a⟩
        sequence := nextSequence s.engine.sequence } }

/-- A CHANCE observation of the prism that an identity code names (R83). -/
def State.chanceObservation (code : Nat) (at_ : Angles) (s : State) : State :=
  match s.prismOfCode code with
  | none => s
  | some prism =>
    { s with engine := { s.engine with sequence := nextSequence s.engine.sequence } }.giveObservation
      ⟨s.engine.sequence, .chance, prism, s.clock, at_.hz, at_.v, .angleOnly, none, none, true⟩

/-! ### Ending an aim -/

/-- A stop request to a drive (R116). -/
def State.stopAxis (ax : Axis) (s : State) : State := s.onDrive ax (Drive.stop ax)

/-- A stop request to both drives (R97, R99). -/
def State.stopAxes (s : State) : State := (s.stopAxis .hz).stopAxis .vt

/-- A MISSED outcome that leaves the record at 4 misses raises TARGET_LOST (R39). -/
def raisesLost (o : AimOutcome) (r : TargetRecord) : Bool := decide (o = .missed) && decide (r.missesAfter = 4)

/-- The outcome handed to the Target Table (R95 step 3, R37). -/
def State.writeOutcome (o : AimOutcome) (deferTime : Option Nat) (a : Aim) (s : State) : State :=
  match s.record a.slot with
  | none => s
  | some r =>
    let s1 := s.setRecord a.slot (some (r.endAim s.clock (a.lastLock.getD s.clock) a.ranged o deferTime))
    if raisesLost o r then s1.raise .targetLost else s1

/-- The block-count change handed to the Sector Table (R95 step 4, R52, R53). -/
def State.writeBlock (o : AimOutcome) (a : Aim) (s : State) : State :=
  match a.sector with
  | some i => s.changeBlock o i
  | none => s

/-- The aim context and the suspend record discarded (R95 step 5). -/
def State.discardAim (s : State) : State := { s with engine := { s.engine with aim := none, suspension := none } }

/-- Steps 1 to 5 of the ending of an aim with an outcome other than RETIRED (R95). -/
def State.finishAim (o : AimOutcome) (deferTime : Option Nat) (s : State) : State :=
  let s1 := s.closeObservation none true
  match s1.engine.aim with
  | none => s1.discardAim
  | some a => ((s1.writeOutcome o deferTime a).writeBlock o a).discardAim

/-- An aim ends and the engine goes on in WAITING (R95). -/
def State.endAim (o : AimOutcome) (deferTime : Option Nat) (s : State) : State :=
  (s.finishAim o deferTime).enterWaiting

/-- An aim ends and the engine is STOPPED (R95: ABORTED, FAULTED). -/
def State.stopAim (o : AimOutcome) (s : State) : State := (s.finishAim o none).enter .stopped

/-- An axis fault reaches the engine (R98). -/
def State.engineFault (ax : Axis) (s : State) : State :=
  match s.engine.state with
  | .stopped => s
  | .waiting => s.enter .stopped
  | .suspended => s.stopAim .faulted
  | _ => ((s.closeObservation none true).stopAxis (otherAxis ax)).stopAim .faulted

/-- A drive takes a fault (R120): AXIS_FAULT is raised and the engine told. A drive in FAULT discards it. -/
def State.faultDrive (ax : Axis) (code : FaultCode) (s : State) : State :=
  if (s.drive ax).state = .fault then s
  else ((s.onDrive ax (Drive.takeFault code)).raise .axisFault).engineFault ax

/-! ### Attempts -/

/-- The direction of an attempt's source (R77): the record's prediction at now, or its nominal position. -/
def State.sourceDirection (s : State) (source : AttemptSource) (r : TargetRecord) : Option Direction :=
  let p := match source with
    | .predicted => r.prediction s.clock
    | .nominal => r.nominal
  match p with
  | none => none
  | some g =>
    match directionTo s.setup g with
    | .given d => some d
    | _ => none

/-- The source of a plan step (R78). -/
def planSource (step : Nat) : AttemptSource := if step % 2 = 1 then .predicted else .nominal

/-- The nominal direction lies within W/2 of the predicted one on both axes (R78). -/
def State.coincides (s : State) (r : TargetRecord) (nominal : Direction) : Bool :=
  match r.fixA, s.sourceDirection .predicted r with
  | some _, some p => !beyondHalfWidth (r.widthAt s.clock nominal.sd) nominal.hz nominal.v p.hz p.v
  | _, _ => false

/-- The direction of a plan step that is not skipped (R78). -/
def State.planDirection (s : State) (r : TargetRecord) (step : Nat) : Option Direction :=
  match planSource step with
  | .predicted => if r.fixA.isSome then s.sourceDirection .predicted r else none
  | .nominal =>
    match s.sourceDirection .nominal r with
    | some d => if s.coincides r d then none else some d
    | none => none

/-- The first of the next `left` plan steps, from `step` on, that is not skipped, with its direction (R78). -/
def State.nextStep (s : State) (r : TargetRecord) : (left step : Nat) → Option (Nat × Direction)
  | 0, _ => none
  | left + 1, step =>
    match s.planDirection r step with
    | some d => some (step, d)
    | none => s.nextStep r left (step + 1)

/-- A later attempt begun in SEARCHING at index 0 (R79), about `centre`. -/
def Aim.beginAttempt (now : Nat) (r : TargetRecord) (step : Nat) (d : Direction) (centre : Angles) (a : Aim) : Aim :=
  let w := r.widthAt now d.sd
  { a.clearMarks with
    planStep := step
    attempt := a.attempt + 1
    source := planSource step
    centre := centre
    centreSd := d.sd
    width := w
    rings := ringCount w
    index := 0
    dwellCount := 0 }

/-- The centre of an attempt after a loss in centring (R85): the present position of the axes, V held. -/
def State.lossCentre (s : State) : Angles := ⟨s.axes.hz, clampV s.axes.v⟩

/-- The attempt ends; the next step not skipped begins, or the aim ends MISSED (R78, R79). `lost`: three non-own windows
in CENTRING ended it (R85). -/
def State.endAttempt (lost : Bool) (s : State) : State :=
  match s.engine.aim with
  | none => s
  | some a =>
    match (s.record a.slot).bind fun r => (s.nextStep r (4 - a.planStep) (a.planStep + 1)).map fun x => (r, x) with
    | none => s.endAim .missed none
    | some (r, step, d) =>
      let centre := if lost then s.lossCentre else ⟨d.hz, d.v⟩
      ((s.onAim (Aim.beginAttempt s.clock r step d centre)).enter .searching).moveAxes centre

/-! ### Search positions -/

/-- The ring of a search position index (R80): the r with 4r² − 4r + 1 ≤ index ≤ 4r² + 4r, that is
(2r − 1)² ≤ index < (2r + 1)². -/
def ringOf (index : Nat) : Nat := (isqrt index + 1) / 2

/-- The offset of a search position index (R80). -/
def searchOffset (index : Nat) : Int × Int :=
  let r := ringOf index
  if r = 0 then (0, 0)
  else
    let m := index - (4 * r * r - 4 * r + 1)
    let side := 2 * r
    if m ≤ side then (-(r : Int) + m, -(r : Int))
    else if m ≤ 2 * side then ((r : Int), -(r : Int) + (m - side : Nat))
    else if m ≤ 3 * side then ((r : Int) - (m - 2 * side : Nat), (r : Int))
    else (-(r : Int), (r : Int) - (m - 3 * side : Nat))

/-- The direction of a search position (R80). -/
def searchPosition (centre : Angles) (index : Nat) : Angles :=
  let o := searchOffset index
  ⟨reduce (centre.hz + 12000 * o.1), clampV (centre.v + 12000 * o.2)⟩

/-- The last index of an attempt (R80). -/
def lastIndex (rings : Nat) : Nat := 4 * rings * (rings + 1)

/-- A move to a search position, in SEARCHING and not dwelling (R81). -/
def State.searchAt (index : Nat) (s : State) : State :=
  match s.engine.aim with
  | none => s
  | some a =>
    ((s.onAim fun x => { x with index := index, dwellCount := 0 }).enter .searching).moveAxes
      (searchPosition a.centre index)

/-- A window counted at a search position (R81). -/
def State.countWindow (s : State) : State :=
  match s.engine.aim with
  | none => s
  | some a =>
    let counted := s.onAim fun x => { x with dwellCount := x.dwellCount + 1 }
    if s.engine.state = .acquiring then
      if a.dwellCount + 1 < 4 then counted
      else if a.rings = 0 then counted.endAttempt false
      else counted.searchAt 1
    else if a.dwellCount + 1 < 2 then counted
    else if lastIndex a.rings < a.index + 1 then counted.endAttempt false
    else counted.searchAt (a.index + 1)

/-! ### The slew -/

/-- Entry to ACQUIRING (R77): counters and marks cleared (R74); the aim's sector recorded at the first (R53). -/
def State.enterAcquiring (s : State) : State :=
  (s.onAim fun a =>
    { a.clearMarks with
      dwellCount := 0
      sector := match a.sector with
        | some i => some i
        | none => s.setup.map fun su => sectorOf (azimuthOf su a.centre.hz) }).enter .acquiring

/-- The second arrival of a slew (R77). -/
def State.slewEnd (s : State) : State :=
  match s.engine.aim with
  | none => s
  | some a =>
    match (s.record a.slot).bind fun r => (s.sourceDirection a.source r).map fun d => (r, d) with
    | none => s.enterAcquiring
    | some (r, d) =>
      let w := r.widthAt s.clock d.sd
      let fresh := s.onAim fun x => { x with centreSd := d.sd, width := w, rings := ringCount w }
      if beyondHalfWidth w d.hz d.v a.centre.hz a.centre.v ∧ a.reslews < 2 then
        (fresh.onAim fun x => { x with centre := ⟨d.hz, d.v⟩, reslews := x.reslews + 1 }).moveAxes ⟨d.hz, d.v⟩
      else fresh.enterAcquiring

/-- An ARRIVED report of an axis (R77, R81, R114): it counts in SLEWING and SEARCHING while that axis' move is awaited. -/
def State.takeArrived (ax : Axis) (s : State) : State :=
  match s.engine.aim with
  | none => s
  | some a =>
    if s.engine.state ≠ .slewing ∧ s.engine.state ≠ .searching then s
    else
      let mine := match ax with | .hz => a.awaitHz | .vt => a.awaitVt
      let other := match ax with | .hz => a.awaitVt | .vt => a.awaitHz
      if mine = false then s
      else
        let s1 := s.onAim fun x => match ax with
          | .hz => { x with awaitHz := false }
          | .vt => { x with awaitVt := false }
        if other then s1
        else if s.engine.state = .slewing then s1.slewEnd
        else s1.beginDwell

/-! ### Lock -/

/-- The lock (R87, R88). -/
def State.lock (at_ : Angles) (s : State) : State :=
  match s.engine.aim with
  | none => s
  | some a =>
    let s1 := (s.openObservation .lock at_).onAim fun x => { x.clearCounters with lastLock := some s.clock }
    let dwell := ((s.record a.slot).bind fun r => if r.cls = .machine then r.dwell else none).getD 0
    if 0 < dwell then
      (s1.onAim fun x =>
        { x with
          dwellDeadline := some (s.clock + dwell)
          nextSample := some (s.clock + 100)
          latestOwn := some at_
          ownSince := false }).enter .tracking
    else (s1.onAim fun x => { x with waitDeadline := some (s.clock + 800) }).enter .ranging

/-! ### Windows -/

/-- The latched angles plus the offsets: Hz reduced, V held within the instrument range (R83, R84, R87, R90). -/
def WindowReport.angles (w : WindowReport) : Angles :=
  let o := w.offsets.getD (0, 0)
  ⟨reduce (w.hz + o.1), clampV (w.vt + o.2)⟩

/-- The window carries an identity code that is not the target's (R82). -/
def State.wrongCode (s : State) (a : Aim) (w : WindowReport) : Bool :=
  match w.code, s.record a.slot with
  | some c, some r => !r.codeMatches c
  | _, _ => false

/-- A fine adjustment of both axes (R84, R115). -/
def State.adjustAxes (t : Angles) (s : State) : State :=
  (s.onDrive .hz (Drive.adjust .hz t.hz)).onDrive .vt (Drive.adjust .vt t.v)

/-- A wrong prism is seen (R83): a CHANCE observation when the code names a record; the attempt ends. -/
def State.wrongPrism (w : WindowReport) (s : State) : State :=
  match w.code with
  | some c => (s.chanceObservation c w.angles).endAttempt false
  | none => s.endAttempt false

/-- The window is within the lock tolerance (R84 step 4). -/
def WindowReport.inTolerance (w : WindowReport) : Bool :=
  let o := w.offsets.getD (0, 0)
  decide (o.1.natAbs ≤ 20) && decide (o.2.natAbs ≤ 20)

/-- An OWN window with no wrong code in CENTRING (R84). -/
def State.centringOwn (w : WindowReport) (s : State) : State :=
  match s.engine.aim with
  | none => s
  | some a =>
    let count := if w.inTolerance then a.inTolerance + 1 else 0
    let s1 := (s.adjustAxes w.angles).onAim fun x =>
      { x with codeSeen := x.codeSeen || w.code.isSome, nonOwn := 0, mixed := 0, inTolerance := count }
    if 3 ≤ count then s1.lock w.angles else s1

/-- The yield test of R86 with the MIXED count `mixed`. -/
def State.yields (s : State) (a : Aim) (mixed : Nat) (w : WindowReport) : Bool :=
  decide (6 ≤ mixed) &&
    match s.record a.slot, w.dominant, s.config with
    | some r, some m, some cfg => decide (r.cls = .machine) && decide (m < cfg.station)
    | _, _, _ => false

/-- A window taken in ACQUIRING, or in SEARCHING while dwelling (R82). -/
def State.searchWindow (a : Aim) (w : WindowReport) (s : State) : State :=
  if w.cls = .own then
    if s.wrongCode a w then s.wrongPrism w
    else ((s.onAim Aim.clearMarks).enter .centring).centringOwn w
  else s.countWindow

/-- A window taken in CENTRING (R84, R85). -/
def State.centringWindow (a : Aim) (w : WindowReport) (s : State) : State :=
  match w.cls with
  | .own => if s.wrongCode a w then s.wrongPrism w else s.centringOwn w
  | .mixed =>
    let s1 := s.onAim fun x => { x with inTolerance := 0, mixed := x.mixed + 1 }
    if s.yields a (a.mixed + 1) w then s1.endAim .yielded (some (s.clock + 3000))
    else if 20 ≤ a.mixed + 1 then s1.endAttempt false
    else s1
  | .empty | .weak | .foreign =>
    let s1 := s.onAim fun x => { x with inTolerance := 0, mixed := 0, nonOwn := x.nonOwn + 1 }
    if 3 ≤ a.nonOwn + 1 then s1.endAttempt true else s1

/-- A window taken in RANGING (R89). -/
def State.rangingWindow (a : Aim) (w : WindowReport) (s : State) : State :=
  if w.cls = .own ∧ s.wrongCode a w = false then s.adjustAxes w.angles else s

/-- A window taken in TRACKING (R90). -/
def State.trackingWindow (a : Aim) (w : WindowReport) (s : State) : State :=
  if w.cls = .own ∧ s.wrongCode a w = false then
    (s.adjustAxes w.angles).onAim fun x =>
      { x with
        latestOwn := some w.angles
        ownSince := true
        codeSeen := x.codeSeen || w.code.isSome
        nonOwn := 0
        mixed := 0 }
  else if w.cls = .mixed then
    let s1 := s.onAim fun x => { x with mixed := x.mixed + 1 }
    if s.yields a (a.mixed + 1) w then s1.endAim .yielded (some (s.clock + 3000)) else s1
  else
    let s1 := s.onAim fun x => { x with mixed := 0, nonOwn := x.nonOwn + 1 }
    if 10 ≤ a.nonOwn + 1 then s1.endAim .trackLost none else s1

/-- A window report taken by the engine in the state it is in (R82, R84, R85, R89, R90, R131). -/
def State.takeWindow (w : WindowReport) (s : State) : State :=
  match s.engine.aim with
  | none => s
  | some a =>
    match s.engine.state with
    | .acquiring => s.searchWindow a w
    | .searching => if s.engine.dwelling then s.searchWindow a w else s
    | .centring => s.centringWindow a w
    | .ranging => s.rangingWindow a w
    | .tracking => s.trackingWindow a w
    | .stopped | .waiting | .slewing | .suspended => s

/-! ### Suspension -/

/-- The suspend record of an aim (R100). -/
def suspensionOf (state : EngineState) (now : Nat) (a : Aim) : Suspension :=
  ⟨a.slot, a.prism, state, a.attempt, a.source, a.index, now⟩

/-- The hold start reaches the engine (R100). -/
def State.suspendAim (s : State) : State :=
  if s.engine.state.isRunningAim then
    let s1 := s.closeObservation none true
    let s2 := s1.onAim fun a =>
      { a.cancelTimers.clearCounters with abandonDeadline := some (s.clock + 10000) }
    { s2 with engine := { s2.engine with
        suspension := s2.engine.aim.map (suspensionOf s.engine.state s.clock) } }.enter .suspended
  else s

/-- The aim resumes by its state at suspension (R103), about the direction `d` of the fresh prediction. -/
def State.resumeAim (u : Suspension) (r : TargetRecord) (d : Direction) (s : State) : State :=
  let s1 := { s with engine := { s.engine with suspension := none } }
  if u.state = .searching then
    (s1.onAim fun a => { a with abandonDeadline := none, reslews := 0 }).searchAt u.index
  else
    let w := r.widthAt s.clock d.sd
    ((s1.onAim fun a =>
      { a with
        abandonDeadline := none
        reslews := 0
        centre := ⟨d.hz, d.v⟩
        centreSd := d.sd
        width := w
        rings := ringCount w
        index := 0
        dwellCount := 0 }).enter .slewing).moveAxes ⟨d.hz, d.v⟩

/-- The tests for resumption (R102), made when the hold is over and both axes are READY. -/
def State.tryResume (s : State) : State :=
  if s.engine.state = .suspended ∧ s.held = false ∧ s.bothReady = true then
    match s.engine.aim, s.engine.suspension with
    | some a, some u =>
      if u.time + 10000 < s.clock then s.endAim .abandoned none
      else
        match (s.record a.slot).filter fun r => r.prism = u.prism with
        | none => s.discardAim.enterWaiting
        | some r =>
          match s.filter r with
          | .passes d => s.resumeAim u r d
          | .fails why =>
            match why.reason with
            | some reason => s.endAim (.unreachable reason) none
            | none => s.endAim .abandoned none
    | _, _ => s
  else s

end Sys2Proof.Machine
end

