-- ==== Sys2Proof/Machine/HoldState.lean ====
section
/-! DEFINITION. The site hold's start and end at the blocks that act on them (R169, R173), and the fault line of a drive
that leaves FAULT. -/

namespace Sys2Proof.Machine

open Sys2Proof

/-- The hold comes into force (R173): HOLD_CHANGED, the engine suspends (R100), both drives brake (R123). -/
def State.holdBegins (s : State) : State :=
  ((((s.raise .holdChanged).suspendAim).onDrive .hz Drive.holdStart).onDrive .vt Drive.holdStart)

/-- The hold ends (R173): HOLD_CHANGED, both drives enter their return states (R124), selection is made when the engine
is WAITING (R57), and resumption is tested when it is SUSPENDED (R102). -/
def State.holdEnds (s : State) : State :=
  ((((s.raise .holdChanged).onDrive .hz (Drive.holdEnd .hz s.clock)).onDrive .vt (Drive.holdEnd .vt s.clock)).select).tryResume

/-- The signals that a change of the hold's sources calls for (R169): at the event that makes a first source hold, and
at the one that makes the last cease. `before` is the hold before the change. -/
def State.signalHold (before : Bool) (s : State) : State :=
  match before, s.held with
  | false, true => s.holdBegins
  | true, false => s.holdEnds
  | _, _ => s

/-- The receiver's state and the hold's sources changed, with the signals that follow. -/
def State.withHold (change : State → State) (s : State) : State := (change s).signalHold s.held

/-- A rising edge of HOLD_IN (R171). -/
def State.holdInRises (s : State) : State :=
  (s.withHold fun x => { x with peers := { x.peers with holdIn := true, repeatDeadline := some (x.clock + 1000) } }).requestBreak

/-- The engine is told that a drive has entered READY at the end of a settle, and AXES_READY is raised when the other
drive is READY and it has not been raised since an index was set (R112). -/
def State.settled (ax : Axis) (s : State) : State :=
  if (s.drive ax).state = .ready then
    let s1 := if s.bothReady ∧ s.axesReadyRaised = false then
        { s with axesReadyRaised := true }.raise .axesReady
      else s
    s1.tryResume
  else s

end Sys2Proof.Machine
end

