-- ==== Sys2Proof/Machine/Line.lean ====
section
/-! DEFINITION. The Site Line Controller at the line (08_the_site_line.md): characters received and echoed, sending,
breaks. -/

namespace Sys2Proof.Machine

open Sys2Proof

/-- The first character starts a frame of the part's own group and of a known kind (R144). Before CONFIGURE every first
character is of another group (R143). -/
def State.startsFrame (s : State) (c : Byte) : Bool :=
  match s.config with
  | some cfg => decide (groupOf c = cfg.group) && (lengthOfKind (kindOf c)).isSome
  | none => false

/-- A marked character, taken in IDLE, MUTED or RECEIVING (R144, R145). -/
def SiteLine.takeMarked (starts : Bool) (c : Byte) (l : SiteLine) : SiteLine :=
  if starts then { l with receiver := .receiving, assembler := [c] }
  else { l with receiver := .muted, assembler := [] }

/-- A character taken by the receiver state (R144, R145); in BREAK none is taken (R149). -/
def State.receive (c : LineChar) (s : State) : State :=
  { s with line :=
      match s.line.receiver, c with
      | .break, _ => s.line
      | .receiving, .unmarked v =>
        if s.line.assembler.length < 24 then { s.line with assembler := s.line.assembler ++ [v] }
        else { s.line with receiver := .muted, assembler := [] }
      | .receiving, .framingError => { s.line with receiver := .muted, assembler := [] }
      | _, .marked v => s.line.takeMarked (s.startsFrame v) v
      | _, _ => s.line }

/-- The echo is the character sent (R156): same value, same mark position. -/
def echoEqual (out : Sending) (c : LineChar) : Bool :=
  match out.chars[out.echoed]?, c with
  | some v, .marked w => decide (out.echoed = 0) && decide (v = w)
  | some v, .unmarked w => decide (out.echoed ≠ 0) && decide (v = w)
  | _, _ => false

/-- A collision (R156): the frame is dropped and the collision mark set. -/
def State.collide (s : State) : State := { s with line := { s.line with collision := true }.rest }

/-- The line lies at mark from a fine instant on, unless a break holds it at space (R154). -/
def State.atMarkFrom (t : Nat) (s : State) : State :=
  match s.line.receiver, s.line.transmitter with
  | .break, _ => s
  | _, .sendingBreak _ => s
  | _, _ => { s with line := { s.line with idleFrom := some t } }

/-- How long the line stays at space after a framing error: shorter than a break (R142, R149, log entry 9). -/
def State.spaceLeft (s : State) : Nat := Config.spaceAfterError s.choices % (24 * finePerBit)

/-- A character is complete on the line (R154): the line is at mark after its stop bit, and after a framing error, whose
stop bit is at space, once the run of space ends (R142). -/
def State.endCharacter (c : LineChar) (s : State) : State :=
  match c with
  | .framingError => if s.line.receiver = .break then s else (s.atMarkFrom (s.instant + s.spaceLeft)).tookChoice
  | .marked _ | .unmarked _ => s.atMarkFrom s.instant

/-- The end of the last stop bit of a frame being sent: its characters follow one another with no idle time (R142). -/
def Sending.over (out : Sending) : Nat := out.begun + out.chars.length * finePerChar

/-- A character's echo taken while SENDING (R150, R155, R156). While characters of the frame are still to come the line
lies at mark from the end of the last of them (R142, R154). -/
def State.takeEcho (out : Sending) (c : LineChar) (s : State) : State :=
  if echoEqual out c then
    if out.echoed + 1 < out.chars.length then
      { s with line := { s.line with transmitter := .sending { out with echoed := out.echoed + 1 } } }.atMarkFrom out.over
    else { s with line := s.line.rest }.atMarkFrom s.instant
  else (s.endCharacter c).collide

/-- A character complete on the line: the echo of the part's own while SENDING, taken by the receiver otherwise (R150). -/
def State.lineCharacter (c : LineChar) (s : State) : State :=
  match s.line.transmitter with
  | .sending out => s.takeEcho out c
  | _ => (s.endCharacter c).receive c

/-- The head frame begins to be sent (R155): the line lies at mark again from the end of its last character (R142, R154). -/
def State.beginSend (s : State) : State :=
  match s.config, s.line.queue with
  | some cfg, f :: rest =>
    let out : Sending := ⟨frameChars cfg s.clock f, 0, s.instant⟩
    { s with line := { s.line with
        queue := rest
        transmitter := .sending out
        idleFrom := some out.over
        collision := false } }
  | _, _ => { s with line := s.line.rest }

/-- The fine instant at which an awaited echo is late: 2 character times after the end of the character's stop bit
(R156). -/
def echoDeadline (out : Sending) : Nat := out.begun + (out.echoed + 3) * finePerChar

/-- The part lets the line go to mark at a fine instant, where it has not lain at mark since before (R154, R156, R158, log
entry 19). -/
def SiteLine.cutShort (now : Nat) (l : SiteLine) : SiteLine := { l with idleFrom := l.idleFrom.map (min · now) }

/-- The receiver has seen 24 bit times of space (R149). -/
def State.breakSeen (s : State) : State :=
  { s with line := { s.line with receiver := .break, assembler := [], idleFrom := none } }

/-- The line has returned to mark after a break (R149), which sets the hold deadline (R170): under it the hold goes on. A
frame being sent takes the line up to its own end (R154). -/
def State.breakOver (s : State) : State :=
  { s with
    line := { s.line with
      receiver := .idle
      idleFrom := match s.line.transmitter with
        | .sending out => some (max s.instant out.over)
        | _ => some s.instant }
    peers := { s.peers with holdDeadline := some (s.clock + 3000) } }

/-- The part's break is released, and the line returns to mark (R157). With the receiver in BREAK that ends the break
(R149), unless another station still holds the line at space, which is a free value: the break then goes on to its
BREAK_END (log entry 29). -/
def State.releaseBreak (s : State) : State :=
  let t := { s with line := { s.line.rest with idleFrom := some s.instant } }
  if s.line.receiver = .break then
    if Config.otherBreak s.choices then { t with line := { t.line with idleFrom := none } }.tookChoice
    else t.breakOver.tookChoice
  else t

/-- The listen-only mark set at a clash, which empties the transmit queue (R153, R168). -/
def State.forceListenOnly (s : State) : State :=
  let line := { s.line with listenOnly := true, queue := [] }
  { s with line := if line.transmitter = .waitingGap then { line with transmitter := .idle } else line }

/-- The RESET command at the Site Line Controller (R158). -/
def SiteLine.resetCommand (l : SiteLine) (now : Nat) : SiteLine :=
  { l with
    queue := []
    transmitter := match l.transmitter with
      | .sendingBreak t => .sendingBreak t
      | _ => .idle
    idleFrom := match l.transmitter with
      | .sending _ => (l.cutShort now).idleFrom
      | _ => l.idleFrom
    collision := false }

end Sys2Proof.Machine
end

