-- ==== Sys2Proof/Machine/Peers.lean ====
section
/-! DEFINITION. The Peer Exchange (09_peer_exchange_and_site_hold.md): the peer table, the three frame kinds and their
effects, the clash, the PRESENCE. -/

namespace Sys2Proof.Machine

open Sys2Proof

/-- The entry holds the record of a station. -/
def isStation (station : Nat) (o : Option Peer) : Bool :=
  match o with
  | some p => p.station == station
  | none => false

/-- When an entry's peer was last heard. -/
def heardAt (o : Option Peer) : Nat :=
  match o with
  | some p => p.lastHeard
  | none => 0

/-- The entry from `i` on with the earliest last heard, and that time (R160, third row). -/
def earliestEntry : (i : Nat) → List (Option Peer) → Option (Nat × Nat)
  | _, [] => none
  | i, o :: os =>
    match earliestEntry (i + 1) os with
    | some (j, t) => if t < heardAt o then some (j, t) else some (i, heardAt o)
    | none => some (i, heardAt o)

/-- The entry that a frame's sender takes: its own, else the lowest empty one, else the one heard earliest (R160). -/
def entryFor (station : Nat) (table : List (Option Peer)) : Nat :=
  match table.findIdx? (isStation station) with
  | some i => i
  | none =>
    match table.findIdx? Option.isNone with
    | some i => i
    | none => ((earliestEntry 0 table).map Prod.fst).getD 0

/-- The record of a sender created or refreshed (R160). -/
def heardPeer (station now : Nat) (table : List (Option Peer)) : Peer :=
  match table.find? (isStation station) with
  | some (some p) => { p with lastHeard := now }
  | _ => ⟨station, now, none, none, none⟩

/-- The peer table after a valid frame, its sender's record then changed by `f` (R160, R163, R165). -/
def hearPeer (station now : Nat) (f : Peer → Peer) (table : List (Option Peer)) : List (Option Peer) :=
  table.set (entryFor station table) (some (f (heardPeer station now table)))

/-- The peer table changed. -/
def State.onPeers (f : List (Option Peer) → List (Option Peer)) (s : State) : State :=
  { s with peers := { s.peers with table := f s.peers.table } }

/-- A defer request for a prism (R43): an aim on it that is not suspended ends YIELDED (R96); otherwise the record takes
the defer, which makes a selection (R57). -/
def State.deferRequest (prism t : Nat) (s : State) : State :=
  match s.slotOf prism with
  | none => s
  | some i =>
    match s.record i with
    | none => s
    | some r =>
      if r.state = .active ∧ s.engine.state.isRunningAim = true then s.endAim .yielded (some t)
      else (s.setRecord i (some (r.takeDefer s.clock t))).select

/-- A peer fix offered to a record (R34, R31, R42); when it becomes fix A it makes a selection (R57). -/
def State.offerPeerFix (station prism : Nat) (pos : Grid) (quality age : Nat) (s : State) : State :=
  match s.slotOf prism with
  | none => s
  | some i =>
    match s.record i with
    | none => s
    | some r =>
      match peerFix r.cls station pos quality age s.clock with
      | none => s
      | some f =>
        match r.takeFix f with
        | none => s
        | some r' => (s.setRecord i (some (r'.dueAfterPeerFix f))).select

/-- The part's own distance to a record's prism (R166 steps 1 and 2). -/
def State.ownDistance (s : State) (r : TargetRecord) : Option Nat :=
  match s.setup, r.prediction s.clock with
  | some su, some p => some (slopeDistance su p)
  | _, _ => none

/-- The verdict of the intent comparison: the sender is better (R166). -/
def senderBetter (own : Option Nat) (ownStation sender distance : Nat) : Bool :=
  match own with
  | none => true
  | some d => decide (distance < d) || (decide (distance = d) && decide (sender < ownStation))

/-- An INTENT compared, when it names a MACHINE record held here and its hold is not 0 (R165 to R167). -/
def State.compareIntent (sender prism distance hold : Nat) (s : State) : State :=
  match (s.slotOf prism).bind fun i => s.record i with
  | none => s
  | some r =>
    if r.cls = .machine ∧ hold ≠ 0 ∧
        senderBetter (s.ownDistance r) ((s.config.map StationConfig.station).getD 0) sender distance = true then
      s.deferRequest prism (s.clock + hold)
    else s

/-- A valid frame taken (R160, then R163, R164 or R165), received now. -/
def State.takeFrame (sender : Nat) (frame : Received) (s : State) : State :=
  match frame with
  | .presence run pos => s.onPeers (hearPeer sender s.clock fun p => { p with run := some run, pos := pos })
  | .sighting prism pos quality age =>
    (s.onPeers (hearPeer sender s.clock id)).offerPeerFix sender prism pos quality age
  | .intent prism distance hold =>
    (s.onPeers (hearPeer sender s.clock fun p => { p with intent := some ⟨prism, distance, s.clock + hold⟩ })).compareIntent
      sender prism distance hold

/-- A station clash (R168). -/
def State.clash (s : State) : State :=
  ({ s with peers := { s.peers with clash := true } }.raise .stationClash).forceListenOnly

/-- The end of a frame in RECEIVING (R146): the assembler is emptied, the receiver IDLE, the frame validated (R147). -/
def State.endFrame (s : State) : State :=
  let s1 := { s with line := { s.line with receiver := .idle, assembler := [] } }
  match s.config with
  | none => s1
  | some cfg =>
    match validate cfg s.line.assembler with
    | .discarded => s1
    | .clash => s1.clash
    | .valid sender frame => s1.takeFrame sender frame

/-- The run state of the part's PRESENCE (R162). -/
def State.runState (s : State) : RunState :=
  if s.held then .held
  else if s.engine.state = .stopped then .paused
  else .running

/-- A PRESENCE is offered and its deadline set (R162). -/
def State.offerPresence (s : State) : State :=
  let s1 := s.offerFrame (.presence s.runState (s.setup.map fun su => ⟨su.es, su.ns, su.hs⟩))
  { s1 with peers := { s1.peers with presenceDeadline := some (s.clock + 5000) } }

/-- A peer record changed by entry number. -/
def State.onPeer (i : Nat) (f : Peer → Option Peer) (s : State) : State :=
  s.onPeers fun t => t.modify i fun o => o.bind f

end Sys2Proof.Machine
end

