-- ==== Sys2Proof/Machine/Operands.lean ====
section
/-! DEFINITION. How a host command is taken (R176 to R180), and the value tests of its operands (R6, R22, R25, R27, R49,
R51, R94, R181, R183). -/

namespace Sys2Proof.Machine

open Sys2Proof

/-- The command codes: the place of a command in the table of R180 (R195). -/
inductive CommandCode where
  | configure | setStation | loadTarget | editTarget | retireTarget | readTarget | setSector | readSector | run | pause
  | aimNow | range | takeObservation | readStatus | readPeers | ackEvents | clearFault | siteHold | reset
  deriving DecidableEq, Repr

/-- The number of a command code (R195). -/
def CommandCode.number : CommandCode → Nat
  | .configure => 1
  | .setStation => 2
  | .loadTarget => 3
  | .editTarget => 4
  | .retireTarget => 5
  | .readTarget => 6
  | .setSector => 7
  | .readSector => 8
  | .run => 9
  | .pause => 10
  | .aimNow => 11
  | .range => 12
  | .takeObservation => 13
  | .readStatus => 14
  | .readPeers => 15
  | .ackEvents => 16
  | .clearFault => 17
  | .siteHold => 18
  | .reset => 19

/-- The commands accepted before CONFIGURE (R180 test 3). -/
def CommandCode.needsConfigure : CommandCode → Bool
  | .configure | .readStatus | .reset => false
  | _ => true

/-- The command slot written (R176). -/
def State.respond (code : Nat) (a : Answer) (s : State) : State :=
  { s with link := { s.link with slot := some ⟨code, a⟩ } }

/-- What a command's own rule makes of it: its answer, and the state its effect leaves. -/
structure Taken where
  answer : Answer
  state : State

/-- A refusal of a command's own rule: no state changes (R180). -/
def State.refuse (s : State) (why : Reason) : Taken := ⟨.refused why, s⟩

/-- The refusal of a frame whose length does not match (R180 test 2). For AIM_NOW the response carries the filter result
byte (R196), which is 0: no filter result. -/
def lengthRefusal (c : CommandCode) : Answer :=
  match c with
  | .aimNow => .aimRefused none
  | _ => .refused .badValue

/-- A command taken (R178, R180): SEQUENCE_ERROR while the slot is HOLDING; else the tests of length and configuration,
then the command's own rule, whose answer is put in the slot. -/
def State.takeCommand {α : Type} (c : CommandCode) (args : Option α) (rule : α → State → Taken) (s : State) : State :=
  if s.link.slot.isSome then s.respond c.number (.refused .sequenceError)
  else
    match args with
    | none => s.respond c.number (lengthRefusal c)
    | some a =>
      if c.needsConfigure = true ∧ s.config = none then s.respond c.number (.refused .notConfigured)
      else (rule a s).state.respond c.number (rule a s).answer

/-- The operand of a command without payload: present when the frame's length is 0 (R180 test 2). -/
def noPayload (fits : Bool) : Option Unit := if fits then some () else none

/-- A prism id within 1..250 (R19). -/
def prismInRange (id : Nat) : Bool := decide (1 ≤ id) && decide (id ≤ 250)

/-- An optional nominal position, each coordinate in the grid range when present (R22, R25, R193). -/
def nominalInRange (g : Option Grid) : Bool :=
  match g with
  | some p => gridInRange p
  | none => true

/-- The value test of SET_STATION (R6). -/
def stationInRange (a : StationArgs) : Bool :=
  gridInRange ⟨a.es, a.ns, a.hs⟩ && decide (a.hi ≤ 3000) && decide (a.o ≤ 3999999)

/-- The value test of CONFIGURE (R181). -/
def configureInRange (a : ConfigureArgs) : Bool :=
  decide (1 ≤ a.station) && decide (a.station ≤ 15) && decide (a.group ≤ 15) && decide (a.listenOnly ≤ 1) &&
    decide (a.hzOffset ≤ 3999999) && decide (150000 ≤ a.vtOffset) && decide (a.vtOffset ≤ 1850000)

/-- Test 1 of LOAD_TARGET (R22): the class, when every value is in range. -/
def loadClass (a : LoadArgs) : Option PrismClass :=
  match classOfCode a.cls with
  | none => none
  | some c =>
    if prismInRange a.prism ∧ (c = .machine → a.blink ≤ 63) ∧ nominalInRange a.nominal = true then some c else none

/-- The mode a mode code names (R196). -/
def modeOfCode : Nat → Option SectorMode
  | 1 => some .opened
  | 2 => some .masked
  | _ => none

/-- The axes a CLEAR_FAULT axis code names: HZ, VT (R183, R196). -/
def axesOfCode : Nat → Option (Bool × Bool)
  | 1 => some (true, false)
  | 2 => some (false, true)
  | 3 => some (true, true)
  | _ => none

/-- The number of sectors in a range (R48). -/
def rangeCount (first last : Nat) : Nat := (if last < first then last + 64 - first else last - first) + 1

/-- A sector lies in the range from `first` upward, passing from 63 to 0 (R48). -/
def inSectorRange (first last s : Nat) : Bool :=
  if first ≤ last then decide (first ≤ s) && decide (s ≤ last) else decide (first ≤ s) || decide (s ≤ last)

/-- The sectors of a range in order (R48, R51). -/
def rangeSectors (first last : Nat) : List Nat := (List.range (rangeCount first last)).map fun i => (first + i) % 64

end Sys2Proof.Machine
end

