-- ==== Sys2Proof/WellFormed.lean ====
section
/-! DEFINITION. Which commands are well formed: every operand of a host command fits the bytes that carry it (R192,
R196), and every operand of an event names something the part has. Well-formed is not the same as accepted: the value
tests of the owning rules are in Machine/Operands.lean. `exec` gives every term a meaning, well formed or not. -/

namespace Sys2Proof

/-- An unsigned number that `k` bytes carry (R192). -/
def fitsBytes (k n : Nat) : Bool := decide (n < 256 ^ k)

/-- A number that 4 bytes carry in two's complement (R192). -/
def fitsSigned4 (x : Int) : Bool := decide (-2147483648 ≤ x) && decide (x < 2147483648)

/-- A grid position that 12 bytes carry (R196). -/
def Grid.fits (g : Grid) : Bool := fitsSigned4 g.e && fitsSigned4 g.n && fitsSigned4 g.h

/-- A condition on an operand that may be missing. -/
def allOf {α : Type} (f : α → Bool) (o : Option α) : Bool :=
  match o with
  | some a => f a
  | none => true

/-- CONFIGURE's operands fit their bytes (R196). -/
def ConfigureArgs.fits (a : ConfigureArgs) : Bool :=
  fitsBytes 1 a.station && fitsBytes 1 a.group && fitsBytes 1 a.listenOnly && fitsBytes 4 a.hzOffset &&
    fitsBytes 4 a.vtOffset

/-- SET_STATION's operands fit their bytes (R196). -/
def StationArgs.fits (a : StationArgs) : Bool :=
  fitsSigned4 a.es && fitsSigned4 a.ns && fitsSigned4 a.hs && fitsBytes 2 a.hi && fitsBytes 4 a.o

/-- LOAD_TARGET's operands fit their bytes (R196). -/
def LoadArgs.fits (a : LoadArgs) : Bool :=
  fitsBytes 1 a.prism && fitsBytes 1 a.cls && fitsBytes 1 a.blink && allOf Grid.fits a.nominal &&
    fitsBytes 4 a.interval && fitsBytes 2 a.dwell

/-- EDIT_TARGET's operands fit their bytes (R196). -/
def EditArgs.fits (a : EditArgs) : Bool :=
  fitsBytes 1 a.prism && fitsBytes 4 a.interval && fitsBytes 2 a.dwell && allOf Grid.fits a.nominal

/-- SET_SECTOR's operands fit their bytes (R196). -/
def SectorArgs.fits (a : SectorArgs) : Bool :=
  fitsBytes 1 a.first && fitsBytes 1 a.last && fitsBytes 1 a.mode && fitsBytes 3 a.vmin && fitsBytes 3 a.vmax

/-- READ_SECTOR's operands fit their bytes (R196). -/
def SectorRange.fits (a : SectorRange) : Bool := fitsBytes 1 a.first && fitsBytes 1 a.last

/-- RANGE's operands fit their bytes (R196). -/
def RangeArgs.fits (a : RangeArgs) : Bool := fitsBytes 2 a.seq && fitsBytes 3 a.distance

/-- A pulse ends no earlier than it starts, and its offsets lie within the half-field (R133, R137). -/
def Pulse.wellFormed (p : Pulse) : Bool :=
  decide (p.start ≤ p.stop) && decide (p.dx.natAbs ≤ 8000) && decide (p.dy.natAbs ≤ 8000)

/-- A slot of the Target Table (R18). -/
def slotExists (slot : Nat) : Bool := decide (slot < 32)

/-- An entry of the peer table (R159). -/
def entryExists (entry : Nat) : Bool := decide (entry < 8)

/-- The command is well formed. -/
def Instr.wellFormed (i : Instr) : Bool :=
  match i with
  | .powerOnReset _ => true
  | .configure args => allOf ConfigureArgs.fits args
  | .setStation args => allOf StationArgs.fits args
  | .loadTarget args => allOf LoadArgs.fits args
  | .editTarget args => allOf EditArgs.fits args
  | .retireTarget prism => allOf (fitsBytes 1) prism
  | .readTarget slot => allOf (fitsBytes 1) slot
  | .setSector args => allOf SectorArgs.fits args
  | .readSector args => allOf SectorRange.fits args
  | .run _ => true
  | .pause _ => true
  | .aimNow prism => allOf (fitsBytes 1) prism
  | .range args => allOf RangeArgs.fits args
  | .takeObservation _ => true
  | .readStatus _ => true
  | .readPeers _ => true
  | .ackEvents _ => true
  | .clearFault axis => allOf (fitsBytes 1) axis
  | .siteHold _ => true
  | .reset _ => true
  | .unknownCommand _ => true
  | .responseRead _ => true
  | .dueTimeExpiry slot => slotExists slot
  | .deferUntilExpiry slot => slotExists slot
  | .arrived _ _ => true
  | .fineArrival _ _ => true
  | .windowEnd _ _ => true
  | .trackSample => true
  | .trackDwellExpiry => true
  | .rangingWaitExpiry => true
  | .blockDecay => true
  | .abandonDeadlineExpiry => true
  | .settleEnd _ _ => true
  | .indexEdge _ _ _ _ => true
  | .vtSeekReversal _ => true
  | .seekTravelExhausted _ _ => true
  | .progressIntervalEnd _ _ => true
  | .bridgeFaultInput _ _ => true
  | .vtLimitCrossing _ => true
  | .hzSectorCrossing _ => true
  | .returnPulse pulse => pulse.wellFormed
  | .identityCode code _ => decide (code ≤ 63)
  | .receiveCharacter _ => true
  | .frameEnd => true
  | .breakBegin => true
  | .breakEnd => true
  | .accessGapExpiry => true
  | .echoCharacter _ => true
  | .echoTimeout => true
  | .breakRelease => true
  | .peerRecordExpiry entry => entryExists entry
  | .intentExpiry entry => entryExists entry
  | .presenceDeadline => true
  | .holdInRising => true
  | .holdInFalling => true
  | .repeatDeadlineExpiry => true
  | .holdDeadlineExpiry => true
  | .startBit => true

end Sys2Proof
end

