-- ==== Sys2Proof/Decode.lean ====
section
/-! DEFINITION. From what the host writes to a command. The rows of spec/opcode_table.json give no bits, so no word spells
a command by the table; the command frames of R177, R195 and R196 are decoded here, with an encoder beside them. -/

namespace Sys2Proof

open Sys2Proof.Machine

/-- The command a word spells by the table's bits: none, since no row of the table gives bits. -/
def decodeTableWord (_nbits _w : Nat) : Option Instr := none

/-! ### Command frames -/

/-- The command a command code names (R195); none for any other code. -/
def commandOfCode : Nat → Option CommandCode
  | 1 => some .configure
  | 2 => some .setStation
  | 3 => some .loadTarget
  | 4 => some .editTarget
  | 5 => some .retireTarget
  | 6 => some .readTarget
  | 7 => some .setSector
  | 8 => some .readSector
  | 9 => some .run
  | 10 => some .pause
  | 11 => some .aimNow
  | 12 => some .range
  | 13 => some .takeObservation
  | 14 => some .readStatus
  | 15 => some .readPeers
  | 16 => some .ackEvents
  | 17 => some .clearFault
  | 18 => some .siteHold
  | 19 => some .reset
  | _ => none

/-- The payload bytes of a command (R196). -/
def payloadLength : CommandCode → Nat
  | .configure => 11
  | .setStation => 18
  | .loadTarget => 22
  | .editTarget => 20
  | .retireTarget | .aimNow | .readTarget | .ackEvents | .clearFault => 1
  | .setSector => 9
  | .readSector => 2
  | .range => 5
  | .run | .pause | .takeObservation | .readStatus | .readPeers | .siteHold | .reset => 0

/-- The unsigned number in `len` bytes from offset `at_` (R192). -/
def fieldAt (p : List Byte) (at_ len : Nat) : Nat := natOf (slice p at_ len)

/-- A grid position behind a presence mark: present when the mark's byte is not 0 (R193). -/
def markedGrid (p : List Byte) (mark : Nat) : Option Grid :=
  if fieldAt p mark 1 = 0 then none else some (gridAt p (mark + 1))

/-- The payload of CONFIGURE (R196). -/
def configureOf (p : List Byte) : ConfigureArgs :=
  ⟨fieldAt p 0 1, fieldAt p 1 1, fieldAt p 2 1, fieldAt p 3 4, fieldAt p 7 4⟩

/-- The payload of SET_STATION (R196). -/
def stationOf (p : List Byte) : StationArgs :=
  ⟨(gridAt p 0).e, (gridAt p 0).n, (gridAt p 0).h, fieldAt p 12 2, fieldAt p 14 4⟩

/-- The payload of LOAD_TARGET (R196). -/
def loadOf (p : List Byte) : LoadArgs :=
  ⟨fieldAt p 0 1, fieldAt p 1 1, fieldAt p 2 1, markedGrid p 3, fieldAt p 16 4, fieldAt p 20 2⟩

/-- The payload of EDIT_TARGET (R196). -/
def editOf (p : List Byte) : EditArgs := ⟨fieldAt p 0 1, fieldAt p 1 4, fieldAt p 5 2, markedGrid p 7⟩

/-- The payload of SET_SECTOR (R196). -/
def sectorOfBytes (p : List Byte) : SectorArgs :=
  ⟨fieldAt p 0 1, fieldAt p 1 1, fieldAt p 2 1, fieldAt p 3 3, fieldAt p 6 3⟩

/-- The payload of READ_SECTOR (R196). -/
def sectorRangeOf (p : List Byte) : SectorRange := ⟨fieldAt p 0 1, fieldAt p 1 1⟩

/-- The payload of RANGE (R196). -/
def rangeOf (p : List Byte) : RangeArgs := ⟨fieldAt p 0 2, fieldAt p 2 3⟩

/-- The command a code and its payload make; `none` for a payload whose length does not match (R180 test 2). -/
def commandOf (c : CommandCode) (p : Option (List Byte)) : Instr :=
  match c with
  | .configure => .configure (p.map configureOf)
  | .setStation => .setStation (p.map stationOf)
  | .loadTarget => .loadTarget (p.map loadOf)
  | .editTarget => .editTarget (p.map editOf)
  | .retireTarget => .retireTarget (p.map fun b => fieldAt b 0 1)
  | .readTarget => .readTarget (p.map fun b => fieldAt b 0 1)
  | .setSector => .setSector (p.map sectorOfBytes)
  | .readSector => .readSector (p.map sectorRangeOf)
  | .run => .run p.isSome
  | .pause => .pause p.isSome
  | .aimNow => .aimNow (p.map fun b => fieldAt b 0 1)
  | .range => .range (p.map rangeOf)
  | .takeObservation => .takeObservation p.isSome
  | .readStatus => .readStatus p.isSome
  | .readPeers => .readPeers p.isSome
  | .ackEvents => .ackEvents (p.map fun b => eventsOfByte (fieldAt b 0 1))
  | .clearFault => .clearFault (p.map fun b => fieldAt b 0 1)
  | .siteHold => .siteHold p.isSome
  | .reset => .reset p.isSome

/-- The payload, when its length is the one the frame gives and the one the command has (R177, R180 test 2). -/
def fittingPayload (c : CommandCode) (len : Byte) (payload : List Byte) : Option (List Byte) :=
  if len.toNat = payloadLength c ∧ payload.length = len.toNat then some payload else none

/-- The command that one transfer of the host is taken as (R177, R195). -/
def decodeTransfer : List Byte → Instr
  | [] => .unknownCommand 0
  | [code] => .unknownCommand code
  | code :: len :: payload =>
    match commandOfCode code.toNat with
    | some c => commandOf c (fittingPayload c len payload)
    | none => .unknownCommand code

/-- The byte that a host command's transfer carries as command code (R195); none for the rows that are events. -/
def Instr.commandByte (i : Instr) : Option Nat :=
  match i with
  | .configure _ => some 1
  | .setStation _ => some 2
  | .loadTarget _ => some 3
  | .editTarget _ => some 4
  | .retireTarget _ => some 5
  | .readTarget _ => some 6
  | .setSector _ => some 7
  | .readSector _ => some 8
  | .run _ => some 9
  | .pause _ => some 10
  | .aimNow _ => some 11
  | .range _ => some 12
  | .takeObservation _ => some 13
  | .readStatus _ => some 14
  | .readPeers _ => some 15
  | .ackEvents _ => some 16
  | .clearFault _ => some 17
  | .siteHold _ => some 18
  | .reset _ => some 19
  | .unknownCommand code => some code.toNat
  | .powerOnReset _ | .responseRead _ | .dueTimeExpiry _ | .deferUntilExpiry _ | .arrived _ _ | .fineArrival _ _
  | .windowEnd _ _ | .trackSample | .trackDwellExpiry | .rangingWaitExpiry | .blockDecay | .abandonDeadlineExpiry
  | .settleEnd _ _ | .indexEdge _ _ _ _ | .vtSeekReversal _ | .seekTravelExhausted _ _ | .progressIntervalEnd _ _
  | .bridgeFaultInput _ _ | .vtLimitCrossing _ | .hzSectorCrossing _ | .returnPulse _ | .identityCode _ _
  | .receiveCharacter _ | .frameEnd | .breakBegin | .breakEnd | .accessGapExpiry | .echoCharacter _ | .echoTimeout
  | .breakRelease | .peerRecordExpiry _ | .intentExpiry _ | .presenceDeadline | .holdInRising | .holdInFalling
  | .repeatDeadlineExpiry | .holdDeadlineExpiry | .startBit => none

/-- A host command whose transfer's length does not match (R180 test 2). -/
def Instr.mismatched (i : Instr) : Bool :=
  match i with
  | .configure args => args.isNone
  | .setStation args => args.isNone
  | .loadTarget args => args.isNone
  | .editTarget args => args.isNone
  | .retireTarget prism => prism.isNone
  | .readTarget slot => slot.isNone
  | .setSector args => args.isNone
  | .readSector args => args.isNone
  | .run fits => !fits
  | .pause fits => !fits
  | .aimNow prism => prism.isNone
  | .range args => args.isNone
  | .takeObservation fits => !fits
  | .readStatus fits => !fits
  | .readPeers fits => !fits
  | .ackEvents marks => marks.isNone
  | .clearFault axis => axis.isNone
  | .siteHold fits => !fits
  | .reset fits => !fits
  | .powerOnReset _ | .unknownCommand _ | .responseRead _ | .dueTimeExpiry _ | .deferUntilExpiry _ | .arrived _ _
  | .fineArrival _ _ | .windowEnd _ _ | .trackSample | .trackDwellExpiry | .rangingWaitExpiry | .blockDecay
  | .abandonDeadlineExpiry | .settleEnd _ _ | .indexEdge _ _ _ _ | .vtSeekReversal _ | .seekTravelExhausted _ _
  | .progressIntervalEnd _ _ | .bridgeFaultInput _ _ | .vtLimitCrossing _ | .hzSectorCrossing _ | .returnPulse _
  | .identityCode _ _ | .receiveCharacter _ | .frameEnd | .breakBegin | .breakEnd | .accessGapExpiry
  | .echoCharacter _ | .echoTimeout | .breakRelease | .peerRecordExpiry _ | .intentExpiry _ | .presenceDeadline
  | .holdInRising | .holdInFalling | .repeatDeadlineExpiry | .holdDeadlineExpiry | .startBit => false

/-! ### The encoder -/

/-- A presence mark and the grid position behind it (R196). -/
def markedBytes (g : Option Grid) : List Byte := byte1 (if g.isSome then 1 else 0) ++ optGridBytes g

/-- A command frame: the payload, or, for a length that does not match, a length byte that is not the command's and no
payload (R177). -/
def commandFrame (c : CommandCode) (p : Option (List Byte)) : List Byte :=
  match p with
  | some b => byte1 c.number ++ (byte1 b.length ++ b)
  | none => byte1 c.number ++ byte1 (payloadLength c + 1)

/-- The payload of a command without operands, when its length matches. -/
def emptyPayload (fits : Bool) : Option (List Byte) := if fits then some [] else none

/-- A transfer that the part takes as the command; none for the rows that are events, which no transfer carries. -/
def encodeTransfer (i : Instr) : Option (List Byte) :=
  match i with
  | .configure args => some (commandFrame .configure (args.map fun a =>
      byte1 a.station ++ byte1 a.group ++ byte1 a.listenOnly ++ bytesOf 4 a.hzOffset ++ bytesOf 4 a.vtOffset))
  | .setStation args => some (commandFrame .setStation (args.map fun a =>
      gridBytes ⟨a.es, a.ns, a.hs⟩ ++ bytesOf 2 a.hi ++ bytesOf 4 a.o))
  | .loadTarget args => some (commandFrame .loadTarget (args.map fun a =>
      byte1 a.prism ++ byte1 a.cls ++ byte1 a.blink ++ markedBytes a.nominal ++ bytesOf 4 a.interval ++
        bytesOf 2 a.dwell))
  | .editTarget args => some (commandFrame .editTarget (args.map fun a =>
      byte1 a.prism ++ bytesOf 4 a.interval ++ bytesOf 2 a.dwell ++ markedBytes a.nominal))
  | .retireTarget prism => some (commandFrame .retireTarget (prism.map byte1))
  | .readTarget slot => some (commandFrame .readTarget (slot.map byte1))
  | .setSector args => some (commandFrame .setSector (args.map fun a =>
      byte1 a.first ++ byte1 a.last ++ byte1 a.mode ++ bytesOf 3 a.vmin ++ bytesOf 3 a.vmax))
  | .readSector args => some (commandFrame .readSector (args.map fun a => byte1 a.first ++ byte1 a.last))
  | .run fits => some (commandFrame .run (emptyPayload fits))
  | .pause fits => some (commandFrame .pause (emptyPayload fits))
  | .aimNow prism => some (commandFrame .aimNow (prism.map byte1))
  | .range args => some (commandFrame .range (args.map fun a => bytesOf 2 a.seq ++ bytesOf 3 a.distance))
  | .takeObservation fits => some (commandFrame .takeObservation (emptyPayload fits))
  | .readStatus fits => some (commandFrame .readStatus (emptyPayload fits))
  | .readPeers fits => some (commandFrame .readPeers (emptyPayload fits))
  | .ackEvents marks => some (commandFrame .ackEvents (marks.map fun m => byte1 (eventByte m)))
  | .clearFault axis => some (commandFrame .clearFault (axis.map byte1))
  | .siteHold fits => some (commandFrame .siteHold (emptyPayload fits))
  | .reset fits => some (commandFrame .reset (emptyPayload fits))
  | .unknownCommand code => some [code]
  | .powerOnReset _ | .responseRead _ | .dueTimeExpiry _ | .deferUntilExpiry _ | .arrived _ _ | .fineArrival _ _
  | .windowEnd _ _ | .trackSample | .trackDwellExpiry | .rangingWaitExpiry | .blockDecay | .abandonDeadlineExpiry
  | .settleEnd _ _ | .indexEdge _ _ _ _ | .vtSeekReversal _ | .seekTravelExhausted _ _ | .progressIntervalEnd _ _
  | .bridgeFaultInput _ _ | .vtLimitCrossing _ | .hzSectorCrossing _ | .returnPulse _ | .identityCode _ _
  | .receiveCharacter _ | .frameEnd | .breakBegin | .breakEnd | .accessGapExpiry | .echoCharacter _ | .echoTimeout
  | .breakRelease | .peerRecordExpiry _ | .intentExpiry _ | .presenceDeadline | .holdInRising | .holdInFalling
  | .repeatDeadlineExpiry | .holdDeadlineExpiry | .startBit => none

end Sys2Proof
end

