-- ==== Sys2Proof/Machine/HostCommands.lean ====
section
/-! DEFINITION. The meanings of POWER_ON_RESET, of the nineteen host commands, of UNKNOWN_COMMAND and of RESPONSE_READ. A
host command's rule says what it does once the link has passed it on (R180); `takeCommand` makes the link's own tests
and puts the answer in the slot. -/

namespace Sys2Proof.Machine

open Sys2Proof
open Host (Outcome)

/-- A command's next state, once the emitter has followed R128 (R129). -/
def lit (s : State) : Outcome State Fault Refusal := .next s.followLight

/-! ### Power-on -/

/-- POWER_ON_RESET (R8, R171): every block at its power-on values, a HOLD_IN found asserted taken as a rising edge at
clock 0. The bridge fault inputs are pins, and keep their levels; the free values are taken afresh. -/
def execPowerOnReset (holdIn : Bool) (s : State) : Outcome State Fault Refusal :=
  let s1 : State := { State.reset with
    hz := { Drive.reset with bridgeFault := s.hz.bridgeFault }
    vt := { Drive.reset with bridgeFault := s.vt.bridgeFault }
    choices := s.choices + 1
    pending := s.pending }
  .next (if holdIn then s1.holdInRises else s1)

/-! ### CONFIGURE and SET_STATION -/

/-- The work of an accepted CONFIGURE at its owners (R181). -/
def State.configure (a : ConfigureArgs) (s : State) : State :=
  { s with
    config := some ⟨a.station, a.group⟩
    line := { s.line with listenOnly := s.line.listenOnly || decide (a.listenOnly = 1) }
    light := { s.light with beam := some (beamCode a.station) }
    hz := s.hz.configure a.hzOffset s.held s.clock
    vt := s.vt.configure a.vtOffset s.held s.clock }.offerPresence

/-- CONFIGURE (R181). -/
def configureRule (a : ConfigureArgs) (s : State) : Taken :=
  if s.config.isSome then s.refuse .alreadyConfigured
  else if configureInRange a = false then s.refuse .badValue
  else ⟨.ok .none, s.configure a⟩

/-- CONFIGURE. -/
def execConfigure (args : Option ConfigureArgs) (s : State) : Outcome State Fault Refusal :=
  lit (s.takeCommand .configure args configureRule)

/-- SET_STATION (R6, R7). -/
def setStationRule (a : StationArgs) (s : State) : Taken :=
  if s.engine.state ≠ .stopped then s.refuse .engineRunning
  else if stationInRange a = false then s.refuse .badValue
  else
    ⟨.ok .none,
      { s with
        setup := some ⟨a.es, a.ns, a.hs, a.hi, a.o⟩
        table := s.table.map (Option.map TargetRecord.clearFixes) }⟩

/-- SET_STATION. -/
def execSetStation (args : Option StationArgs) (s : State) : Outcome State Fault Refusal :=
  lit (s.takeCommand .setStation args setStationRule)

/-! ### Target commands -/

/-- A record with the same blink code, for MACHINE (R22 test 3). -/
def State.codeTaken (cls : PrismClass) (blink : Nat) (s : State) : Bool :=
  decide (cls = .machine) && s.table.any (carriesCode blink)

/-- LOAD_TARGET (R22, R23); the load makes a selection (R57). -/
def loadTargetRule (a : LoadArgs) (s : State) : Taken :=
  match loadClass a with
  | none => s.refuse .badValue
  | some cls =>
    if (s.slotOf a.prism).isSome then s.refuse .duplicate
    else if s.codeTaken cls a.blink then s.refuse .duplicateCode
    else
      match s.table.findIdx? Option.isNone with
      | none => s.refuse .tableFull
      | some i => ⟨.ok (.loaded i), (s.setRecord i (some (loadedRecord s.clock cls a))).select⟩

/-- LOAD_TARGET. -/
def execLoadTarget (args : Option LoadArgs) (s : State) : Outcome State Fault Refusal :=
  .next (s.takeCommand .loadTarget args loadTargetRule)

/-- EDIT_TARGET (R25, R26); the edit makes a selection (R57). -/
def editTargetRule (a : EditArgs) (s : State) : Taken :=
  if prismInRange a.prism = false ∨ nominalInRange a.nominal = false then s.refuse .badValue
  else
    match s.slotOf a.prism with
    | none => s.refuse .unknownPrism
    | some i => ⟨.ok .none, (s.setRecord i ((s.record i).map (TargetRecord.edit a))).select⟩

/-- EDIT_TARGET. -/
def execEditTarget (args : Option EditArgs) (s : State) : Outcome State Fault Refusal :=
  .next (s.takeCommand .editTarget args editTargetRule)

/-- The aim on the record of slot `i` ends RETIRED (R28, R99): the open observation closed without a fix, the axes
stopped, the slot FREE, no outcome and no block-count change. In SUSPENDED there is no observation and no axis to stop. -/
def State.retireAim (i : Nat) (s : State) : State :=
  let s1 := if s.engine.state = .suspended then s else (s.closeObservation none false).stopAxes
  ((s1.setRecord i none).discardAim).enterWaiting

/-- RETIRE_TARGET (R27, R28). -/
def retireTargetRule (prism : Nat) (s : State) : Taken :=
  if prismInRange prism = false then s.refuse .badValue
  else
    match s.slotOf prism with
    | none => s.refuse .unknownPrism
    | some i =>
      if (s.record i).map TargetRecord.state = some .active ∧ s.engine.state.isAim = true then ⟨.ok .none, s.retireAim i⟩
      else ⟨.ok .none, s.setRecord i none⟩

/-- RETIRE_TARGET. -/
def execRetireTarget (prism : Option Nat) (s : State) : Outcome State Fault Refusal :=
  lit (s.takeCommand .retireTarget prism retireTargetRule)

/-- READ_TARGET (R29). -/
def readTargetRule (slot : Nat) (s : State) : Taken :=
  if 31 < slot then s.refuse .badValue
  else
    match s.record slot with
    | none => ⟨.ok (.freeSlot slot), s⟩
    | some r => ⟨.ok (.target ⟨slot, r, r.prediction s.clock⟩), s⟩

/-- READ_TARGET. -/
def execReadTarget (slot : Option Nat) (s : State) : Outcome State Fault Refusal :=
  .next (s.takeCommand .readTarget slot readTargetRule)

/-! ### Sector commands -/

/-- SET_SECTOR's change to the table (R50). -/
def writeSectors (a : SectorArgs) (mode : SectorMode) (table : List Sector) : List Sector :=
  table.mapIdx fun i e =>
    if inSectorRange a.first a.last i then
      { e with mode := mode, vmin := clampNat 200000 1800000 a.vmin, vmax := clampNat 200000 1800000 a.vmax }
    else e

/-- SET_SECTOR (R49, R50); the change makes a selection (R57). -/
def setSectorRule (a : SectorArgs) (s : State) : Taken :=
  if 63 < a.first ∨ 63 < a.last then s.refuse .badValue
  else
    match modeOfCode a.mode with
    | none => s.refuse .badValue
    | some mode =>
      if clampNat 200000 1800000 a.vmax ≤ clampNat 200000 1800000 a.vmin then s.refuse .badValue
      else ⟨.ok .none, { s with sectors := writeSectors a mode s.sectors }.select⟩

/-- SET_SECTOR. -/
def execSetSector (args : Option SectorArgs) (s : State) : Outcome State Fault Refusal :=
  lit (s.takeCommand .setSector args setSectorRule)

/-- READ_SECTOR (R51). -/
def readSectorRule (a : SectorRange) (s : State) : Taken :=
  if 63 < a.first ∨ 63 < a.last then s.refuse .badValue
  else ⟨.ok (.sectors ((rangeSectors a.first a.last).map fun i => (i, s.sector i))), s⟩

/-- READ_SECTOR. -/
def execReadSector (args : Option SectorRange) (s : State) : Outcome State Fault Refusal :=
  .next (s.takeCommand .readSector args readSectorRule)

/-! ### Engine commands -/

/-- RUN (R75). -/
def runRule (_ : Unit) (s : State) : Taken :=
  if s.engine.state = .stopped then
    if s.config.isSome ∧ s.setup.isSome ∧ s.bothReady = true then ⟨.ok .none, s.enterWaiting⟩ else s.refuse .notReady
  else ⟨.ok .none, s⟩

/-- RUN. -/
def execRun (fits : Bool) (s : State) : Outcome State Fault Refusal :=
  .next (s.takeCommand .run (noPayload fits) runRule)

/-- PAUSE's effect by the engine's state (R97). -/
def State.pauseEngine (s : State) : State :=
  match s.engine.state with
  | .stopped => s
  | .waiting => s.enter .stopped
  | .suspended => s.stopAim .aborted
  | _ => ((s.closeObservation none true).stopAxes).stopAim .aborted

/-- PAUSE (R97). -/
def pauseRule (_ : Unit) (s : State) : Taken := ⟨.ok .none, s.pauseEngine⟩

/-- PAUSE. -/
def execPause (fits : Bool) (s : State) : Outcome State Fault Refusal :=
  lit (s.takeCommand .pause (noPayload fits) pauseRule)

/-- AIM_NOW (R71, R72); an accepted one makes a selection (R57). -/
def aimNowRule (prism : Nat) (s : State) : Taken :=
  if prismInRange prism = false then ⟨.aimRefused none, s⟩
  else
    match (s.slotOf prism).bind fun i => s.record i with
    | none => s.refuse .unknownPrism
    | some r =>
      if s.setup = none then s.refuse .notReady
      else
        match s.filter r with
        | .fails why => ⟨.aimRefused (some why), s⟩
        | .passes d => ⟨.ok (.direction d.hz d.v d.sd), { s with forced := some prism }.select⟩

/-- AIM_NOW. -/
def execAimNow (prism : Option Nat) (s : State) : Outcome State Fault Refusal :=
  .next (s.takeCommand .aimNow prism aimNowRule)

/-- The open observation carries a sequence number (R94). -/
def State.openIs (seq : Nat) (s : State) : Bool :=
  match s.engine.openObs with
  | some o => o.seq == seq
  | none => false

/-- RANGE (R94). -/
def rangeRule (a : RangeArgs) (s : State) : Taken :=
  if a.distance < 2000 ∨ 1500000 < a.distance then s.refuse .badValue
  else if s.openIs a.seq then
    let closed := s.closeObservation (some a.distance) true
    ⟨.ok .none, if s.engine.state = .ranging then closed.endAim .observed none else closed⟩
  else s.refuse .tooLate

/-- RANGE. -/
def execRange (args : Option RangeArgs) (s : State) : Outcome State Fault Refusal :=
  lit (s.takeCommand .range args rangeRule)

/-! ### Reports and events -/

/-- TAKE_OBSERVATION (R186): the head stays until the response is read. -/
def takeObservationRule (_ : Unit) (s : State) : Taken :=
  match s.link.observations with
  | [] => s.refuse .empty
  | o :: _ => ⟨.ok (.observation o), s⟩

/-- TAKE_OBSERVATION. -/
def execTakeObservation (fits : Bool) (s : State) : Outcome State Fault Refusal :=
  .next (s.takeCommand .takeObservation (noPayload fits) takeObservationRule)

/-- A drive as READ_STATUS reports it (R190). -/
def driveReport (ax : Axis) (d : Drive) : DriveReport := ⟨d.state, d.indexed, d.position ax, d.fault⟩

/-- The status report (R190). -/
def State.status (s : State) : StatusReport where
  clock := s.clock
  config := s.config
  listenOnly := s.line.listenOnly
  clash := s.peers.clash
  setup := s.setup
  engine := s.engine.state
  aim := s.engine.aim.map fun a => ⟨a.slot, a.prism, a.attempt, a.source, a.index, a.sector⟩
  suspendedAt := s.engine.suspension.map Suspension.time
  openSeq := s.engine.openObs.map OpenObs.seq
  sequence := s.engine.sequence
  forced := s.forced
  records := s.recordCount
  hz := driveReport .hz s.hz
  vt := driveReport .vt s.vt
  emitterOn := s.light.emitter.isOn
  last := s.light.last
  inForce := s.held
  holdIn := s.peers.holdIn
  inBreak := decide (s.line.receiver = .break)
  holdDeadline := s.peers.holdDeadline
  receiver := s.line.receiver
  transmitter := transmitterCode s.line.transmitter
  queued := s.line.queue.length
  observations := s.link.observations.length
  events := s.link.events

/-- READ_STATUS (R190). -/
def readStatusRule (_ : Unit) (s : State) : Taken := ⟨.ok (.status s.status), s⟩

/-- READ_STATUS. -/
def execReadStatus (fits : Bool) (s : State) : Outcome State Fault Refusal :=
  .next (s.takeCommand .readStatus (noPayload fits) readStatusRule)

/-- A peer as READ_PEERS reports it: an intent whose expiry has been reached is absent (R191). -/
def peerReport (now : Nat) (p : Peer) : Peer := { p with intent := p.intent.filter fun i => decide (now < i.expiry) }

/-- The non-empty entries of the peer table from entry `i` on, with their numbers (R191). -/
def peerItems (now : Nat) : (i : Nat) → List (Option Peer) → List (Nat × Peer)
  | _, [] => []
  | i, none :: os => peerItems now (i + 1) os
  | i, some p :: os => (i, peerReport now p) :: peerItems now (i + 1) os

/-- READ_PEERS (R191). -/
def readPeersRule (_ : Unit) (s : State) : Taken := ⟨.ok (.peers s.clock (peerItems s.clock 0 s.peers.table)), s⟩

/-- READ_PEERS. -/
def execReadPeers (fits : Bool) (s : State) : Outcome State Fault Refusal :=
  .next (s.takeCommand .readPeers (noPayload fits) readPeersRule)

/-- ACK_EVENTS (R189). -/
def ackEventsRule (named : EventSet) (s : State) : Taken :=
  ⟨.ok (.events (clearMarks named s.link.events)),
    { s with link := { s.link with events := clearMarks named s.link.events } }⟩

/-- ACK_EVENTS. -/
def execAckEvents (marks : Option EventSet) (s : State) : Outcome State Fault Refusal :=
  .next (s.takeCommand .ackEvents marks ackEventsRule)

/-! ### CLEAR_FAULT, SITE_HOLD, RESET -/

/-- CLEAR_FAULT at one drive (R122): a drive that leaves FAULT with its bridge fault input asserted takes OVERCURRENT
again at once. -/
def State.clearFaultOf (ax : Axis) (s : State) : State :=
  let s1 := s.onDrive ax (Drive.clearFault ax s.held s.clock)
  if (s.drive ax).state = .fault ∧ (s.drive ax).bridgeFault = true then s1.faultDrive ax .overcurrent else s1

/-- The drives' states and fault codes in the answer to CLEAR_FAULT (R183). -/
def State.drivesPayload (s : State) : Payload := .drives s.hz.state s.hz.fault s.vt.state s.vt.fault

/-- CLEAR_FAULT (R183). -/
def clearFaultRule (axis : Nat) (s : State) : Taken :=
  match axesOfCode axis with
  | none => s.refuse .badValue
  | some (h, v) =>
    let s1 := if h then s.clearFaultOf .hz else s
    let s2 := if v then s1.clearFaultOf .vt else s1
    ⟨.ok s2.drivesPayload, s2⟩

/-- CLEAR_FAULT. -/
def execClearFault (axis : Option Nat) (s : State) : Outcome State Fault Refusal :=
  lit (s.takeCommand .clearFault axis clearFaultRule)

/-- SITE_HOLD (R172). -/
def siteHoldRule (_ : Unit) (s : State) : Taken := ⟨.ok .none, s.requestBreak⟩

/-- SITE_HOLD. -/
def execSiteHold (fits : Bool) (s : State) : Outcome State Fault Refusal :=
  .next (s.takeCommand .siteHold (noPayload fits) siteHoldRule)

/-- The part after RESET, but for the command slot (R182). The position of rest of a braked axis is the instrument's
(R125, log entry 16). -/
def State.resetCommand (s : State) : State :=
  { s with
    setup := none
    table := List.replicate 32 none
    sectors := List.replicate 64 Sector.reset
    forced := none
    engine := Engine.reset
    hz := s.hz.resetCommand .hz s.clock (s.freeReading .hz)
    vt := s.vt.resetCommand .vt s.clock (s.freeReading .vt)
    choices := s.choices + 1
    light := { s.light with emitter := .off, window := none, last := none }
    line := s.line.resetCommand s.instant
    peers := { s.peers with table := List.replicate 8 none }
    link := { s.link with observations := [], events := EventSet.clear } }

/-- RESET (R182). -/
def resetRule (_ : Unit) (s : State) : Taken := ⟨.ok .none, s.resetCommand⟩

/-- RESET. -/
def execReset (fits : Bool) (s : State) : Outcome State Fault Refusal :=
  .next (s.takeCommand .reset (noPayload fits) resetRule)

/-! ### The rest of the link -/

/-- UNKNOWN_COMMAND (R178, R180). -/
def execUnknownCommand (code : Byte) (s : State) : Outcome State Fault Refusal :=
  .next (s.respond code.toNat (.refused (if s.link.slot.isSome then .sequenceError else .unknownCommand)))

/-- The response gives the head observation, which leaves the queue once it is read (R186). -/
def Response.takesHead (r : Response) : Bool :=
  match r.answer with
  | .ok (.observation _) => true
  | _ => false

/-- RESPONSE_READ (R179, R186): complete when the host has clocked out the whole response. -/
def execResponseRead (count : Nat) (s : State) : Outcome State Fault Refusal :=
  .next
    (match s.link.slot with
    | none => s
    | some r =>
      if count < (responseBytes r).length then s
      else
        { s with link := { s.link with
            slot := none
            observations := if r.takesHead then s.link.observations.tail else s.link.observations } })

end Sys2Proof.Machine
end

