-- ==== Sys2Proof/Machine/EngineEvents.lean ====
section
/-! DEFINITION. The meanings of the events at the timers of the Target Table, the Sector Table and the Aim Engine. An
expiry whose deadline is absent, or lies ahead of the site clock, finds nothing to do (log entry 11). -/

namespace Sys2Proof.Machine

open Sys2Proof
open Host (Outcome)

/-- The due time of a record has come and has not yet given its expiry (R57). -/
def TargetRecord.dueExpires (now : Nat) (r : TargetRecord) : Bool := r.dueArmed && decide (r.due ≤ now)

/-- The defer-until of a record has come and has not yet given its expiry (R44, R57). -/
def TargetRecord.deferExpires (now : Nat) (r : TargetRecord) : Bool := r.deferArmed && expired r.deferUntil now

/-- DUE_TIME_EXPIRY (R57): a selection. -/
def execDueTimeExpiry (slot : Nat) (s : State) : Outcome State Fault Refusal :=
  .next
    (match s.record slot with
    | none => s
    | some r => if r.dueExpires s.clock then (s.setRecord slot (some { r with dueArmed := false })).select else s)

/-- DEFER_UNTIL_EXPIRY (R44, R57): a selection, which returns the record to IDLE. -/
def execDeferUntilExpiry (slot : Nat) (s : State) : Outcome State Fault Refusal :=
  .next
    (match s.record slot with
    | none => s
    | some r =>
      if r.deferExpires s.clock then (s.setRecord slot (some { r with deferArmed := false })).select else s)

/-- BLOCK_DECAY (R54): every block count above 0 falls by one, every 10,000 ms. -/
def execBlockDecay (s : State) : Outcome State Fault Refusal :=
  .next
    (if s.decayDue ≤ s.clock then
      { s with
        sectors := s.sectors.map fun e => { e with block := e.block - 1 }
        decayDue := s.decayDue + 10000 }
    else s)

/-- A deadline of the aim, in the one state in which it counts, has come. -/
def State.aimExpires (e : EngineState) (deadline : Aim → Option Nat) (s : State) : Bool :=
  decide (s.engine.state = e) &&
    match s.engine.aim with
    | some a => expired (deadline a) s.clock
    | none => false

/-- A sample (R91): the open observation closes and a TRACK observation opens when OWN light has been seen since the
last; otherwise the sample is skipped. -/
def State.takeSample (s : State) : State :=
  let s1 := s.onAim fun a => { a with nextSample := a.nextSample.map (· + 100) }
  match s.engine.aim with
  | none => s1
  | some a =>
    match a.ownSince, a.latestOwn with
    | true, some at_ =>
      (((s1.closeObservation none true).openObservation .track at_).onAim fun x => { x with ownSince := false })
    | _, _ => s1

/-- TRACK_SAMPLE (R91). -/
def execTrackSample (s : State) : Outcome State Fault Refusal :=
  .next (if s.aimExpires .tracking Aim.nextSample then s.takeSample else s)

/-- The end of the track dwell (R92): RANGING for the open observation, or OBSERVED. -/
def State.endDwell (s : State) : State :=
  let s1 := s.onAim fun a => { a with nextSample := none, dwellDeadline := none }
  match s.engine.openObs with
  | some o => (s1.onAim fun a => { a.clearCounters with waitDeadline := some (o.lockTime + 800) }).enter .ranging
  | none => s1.endAim .observed none

/-- TRACK_DWELL_EXPIRY (R92). -/
def execTrackDwellExpiry (s : State) : Outcome State Fault Refusal :=
  lit (if s.aimExpires .tracking Aim.dwellDeadline then s.endDwell else s)

/-- RANGING_WAIT_EXPIRY (R89): the observation closes ANGLE_ONLY and the aim ends OBSERVED. -/
def execRangingWaitExpiry (s : State) : Outcome State Fault Refusal :=
  lit (if s.aimExpires .ranging Aim.waitDeadline then s.endAim .observed none else s)

/-- ABANDON_DEADLINE_EXPIRY (R101). -/
def execAbandonDeadlineExpiry (s : State) : Outcome State Fault Refusal :=
  lit (if s.aimExpires .suspended Aim.abandonDeadline then s.endAim .abandoned none else s)

end Sys2Proof.Machine
end

