-- ==== Sys2Proof/Machine/DriveEvents.lean ====
section
/-! DEFINITION. The meanings of the events at the axis drives. Each carries the encoder's raw count, which is read first
(R107); an event whose condition the drive does not meet finds nothing more to do. -/

namespace Sys2Proof.Machine

open Sys2Proof
open Host (Outcome)

/-- The encoder of an axis is read (R107). Until it is read again, this reading is the axis' position (log entry 28). -/
def State.readAxis (ax : Axis) (raw : Int) (s : State) : State := s.onDrive ax (Drive.read ax (s.firstTravel ax) raw)

/-- The drive reports ARRIVED: on arriving (R114), or at once by R113 (log entry 8). -/
def State.arrivals (ax : Axis) (s : State) : State :=
  if (s.drive ax).arrives ax then (s.onDrive ax Drive.arrive).takeArrived ax
  else if (s.drive ax).reporting then (s.onDrive ax fun d => { d with reporting := false }).takeArrived ax
  else s

/-- ARRIVED (R114, R77, R81). -/
def execArrived (ax : Axis) (raw : Int) (s : State) : Outcome State Fault Refusal :=
  lit ((s.readAxis ax raw).arrivals ax)

/-- A drive in FINE within 50 cu of its target (R115). -/
def Drive.fineArrives (ax : Axis) (d : Drive) : Bool := decide (d.state = .fine) && decide (d.distanceLeft ax ≤ 50)

/-- FINE_ARRIVAL (R115): READY, and no report. -/
def execFineArrival (ax : Axis) (raw : Int) (s : State) : Outcome State Fault Refusal :=
  let s1 := s.readAxis ax raw
  lit (if (s1.drive ax).fineArrives ax then s1.onDrive ax Drive.arrive else s1)

/-- SETTLE_END (R112): READY or the pending move; AXES_READY and the resumption test follow. -/
def execSettleEnd (ax : Axis) (raw : Int) (s : State) : Outcome State Fault Refusal :=
  let s1 := s.readAxis ax raw
  lit (if (s1.drive ax).settleOver s1.clock then (s1.onDrive ax (Drive.endSettle ax s1.clock)).settled ax else s1)

/-- The LIMIT fault of a VT axis found outside its hard limit (R119). -/
def State.limitFault (ax : Axis) (s : State) : State :=
  (s.onDrive ax fun d => { d with outside := true }).faultDrive ax .limit

/-- A completed edge pair with midpoint `mid` (R110): the index is set with the axis at rest; a VT position outside the
hard limit gives LIMIT instead of SETTLING. -/
def State.pairComplete (ax : Axis) (mid : Int) (s : State) : State :=
  let s1 := { s.onDrive ax (Drive.setIndex ax mid s.clock) with axesReadyRaised := false }
  if (s1.drive ax).beyondLimit ax then s1.limitFault ax else s1

/-- INDEX_EDGE (R110). -/
def execIndexEdge (ax : Axis) (rising : Bool) (raw rest : Int) (s : State) : Outcome State Fault Refusal :=
  let s1 := s.readAxis ax raw
  lit
    (if rising then
      if (s1.drive ax).state = .indexing then s1.onDrive ax fun d => { d with capture := some raw } else s1
    else
      match (s1.drive ax).edgePair rising raw with
      | some mid => (s1.readAxis ax rest).pairComplete ax mid
      | none => s1)

/-- VT_SEEK_REVERSAL (R109). -/
def execVtSeekReversal (raw : Int) (s : State) : Outcome State Fault Refusal :=
  let s1 := s.readAxis .vt raw
  lit (if s1.vt.reverses then s1.onDrive .vt (Drive.reverse s1.clock) else s1)

/-- An index seek that has reached its full travel (R111). -/
def Drive.seekExhausted (ax : Axis) (d : Drive) : Bool :=
  decide (d.state = .indexing) && decide (seekTravel ax ≤ d.travel)

/-- SEEK_TRAVEL_EXHAUSTED (R111): INDEX_MISSING. -/
def execSeekTravelExhausted (ax : Axis) (raw : Int) (s : State) : Outcome State Fault Refusal :=
  let s1 := s.readAxis ax raw
  lit (if (s1.drive ax).seekExhausted ax then s1.faultDrive ax .indexMissing else s1)

/-- PROGRESS_INTERVAL_END (R118): STALL below 100 cu, else the next interval. -/
def execProgressIntervalEnd (ax : Axis) (raw : Int) (s : State) : Outcome State Fault Refusal :=
  let s1 := s.readAxis ax raw
  lit
    (match (s1.drive ax).intervalOver s1.clock with
    | none => s1
    | some iv =>
      if (s1.drive ax).progress ax iv < 100 then s1.faultDrive ax .stall
      else s1.onDrive ax fun d => { d with interval := some ⟨s1.clock, d.progressMeasure ax⟩ })

/-- BRIDGE_FAULT_INPUT (R119): OVERCURRENT when asserted. -/
def execBridgeFaultInput (ax : Axis) (asserted : Bool) (s : State) : Outcome State Fault Refusal :=
  let s1 := s.onDrive ax fun d => { d with bridgeFault := asserted }
  lit (if asserted then s1.faultDrive ax .overcurrent else s1)

/-- VT_LIMIT_CROSSING (R119): LIMIT when the VT position has moved out of the hard limit. -/
def execVtLimitCrossing (raw : Int) (s : State) : Outcome State Fault Refusal :=
  let s1 := s.readAxis .vt raw
  lit (if s1.vt.beyondLimit .vt = true ∧ s1.vt.outside = false then s1.limitFault .vt else s1)

/-- HZ_SECTOR_CROSSING (R129): the emitter follows the azimuth of the new HZ position. -/
def execHzSectorCrossing (raw : Int) (s : State) : Outcome State Fault Refusal := lit (s.readAxis .hz raw)

end Sys2Proof.Machine
end

