-- ==== Sys2Proof/Machine/LightEvents.lean ====
section
/-! DEFINITION. The meanings of the events at the Light and Return Unit: pulses, identity codes and the end of a window. -/

namespace Sys2Proof.Machine

open Sys2Proof
open Host (Outcome)

/-- The length of a window in fine units (R130). -/
def finePerWindow : Nat := windowLength * finePerUs

/-- The window in progress has run its 1,504 µs (R130). -/
def State.windowOver (s : State) : Bool :=
  match s.light.window with
  | some w => decide (w.start + finePerWindow ≤ s.instant)
  | none => false

/-- The part's own station number for pairing (R135). -/
def State.ownStation (s : State) : Nat := (s.config.map StationConfig.station).getD 0

/-- The window that begins where `w` ends (R130), with the evidence that belongs to it (R133, R139). -/
def nextWindow (w : Window) : Window := ⟨w.start + finePerWindow, carriedPulses w.pulses, carriedCodes w.codes⟩

/-- The record of the last window (R140). -/
def State.lastOf (r : WindowReport) (s : State) : LastWindow := ⟨r, r.code.bind fun c => s.prismOfCode c⟩

/-- The end of the window `w` (R131 to R140), the axes having been read: the next window begins, the report is stored
and given to the engine. Without both positions the window is discarded (R138). -/
def State.endWindow (w : Window) (s : State) : State :=
  match s.hz.position .hz, s.vt.position .vt with
  | some h, some v =>
    let r := windowReport s.ownStation w.pulses w.codes h v s.clock
    { s with light := { s.light with window := some (nextWindow w), last := some (s.lastOf r) } }.takeWindow r
  | _, _ => { s with light := { s.light with window := some (nextWindow w) } }

/-- WINDOW_END (R131). -/
def execWindowEnd (hzRaw vtRaw : Int) (s : State) : Outcome State Fault Refusal :=
  let s1 := (s.readAxis .hz hzRaw).readAxis .vt vtRaw
  lit
    (match s1.light.window with
    | some w => if s1.windowOver then s1.endWindow w else s1
    | none => s1)

/-- The window in progress changed, when there is one. -/
def State.onWindow (f : Window → Window) (s : State) : State :=
  { s with light := { s.light with window := s.light.window.map f } }

/-- RETURN_PULSE (R133): gathered by the window in progress, dropped when there is none. DESIGN CHOICE (log entry 6): the
spec does not say when a pulse still in progress at a window's end reaches the unit. Here a pulse's start and end come
together in one RETURN_PULSE; one that began in the window and ends after it is counted there only when its RETURN_PULSE
comes before the WINDOW_END, with an end beyond 1,504 µs, and told afterwards, with a negative start, it counts in no
window. -/
def execReturnPulse (p : Pulse) (s : State) : Outcome State Fault Refusal :=
  .next (s.onWindow fun w => { w with pulses := w.pulses ++ [p] })

/-- IDENTITY_CODE (R139): gathered by the window in progress, dropped when there is none. -/
def execIdentityCode (code : Nat) (done : Int) (s : State) : Outcome State Fault Refusal :=
  .next (s.onWindow fun w => { w with codes := w.codes ++ [⟨code, done⟩] })

end Sys2Proof.Machine
end

