-- ==== Sys2Proof/Machine/LineEvents.lean ====
section
/-! DEFINITION. The meanings of the events at the site line (08_the_site_line.md). -/

namespace Sys2Proof.Machine

open Sys2Proof
open Host (Outcome)

/-- RECEIVE_CHARACTER (R144, R145); while the part is SENDING the character is its echo (R150). -/
def execReceiveCharacter (c : LineChar) (s : State) : Outcome State Fault Refusal := .next (s.lineCharacter c)

/-- ECHO_CHARACTER (R156); a character that comes while nothing is being sent is no echo, and is received (R150). -/
def execEchoCharacter (c : LineChar) (s : State) : Outcome State Fault Refusal := .next (s.lineCharacter c)

/-- The line has lain at mark for 2 character times while RECEIVING (R146). -/
def State.frameOver (s : State) : Bool :=
  decide (s.line.receiver = .receiving) && s.line.idleFrom.isSome && decide (2 * finePerChar ≤ s.idleTime)

/-- FRAME_END (R146). -/
def execFrameEnd (s : State) : Outcome State Fault Refusal := lit (if s.frameOver then s.endFrame else s)

/-- BREAK_BEGIN (R149): the line has lain at space for 24 bit times. -/
def execBreakBegin (s : State) : Outcome State Fault Refusal :=
  lit (if s.line.receiver = .break then s else s.withHold State.breakSeen)

/-- The part holds the line at space: its break has not lasted its 48 bit times (R157). -/
def State.holdsSpace (s : State) : Bool :=
  match s.line.transmitter with
  | .sendingBreak release => decide (s.instant < release)
  | _ => false

/-- BREAK_END (R149, R170): the line has returned to mark, which it cannot while the part's own break holds it at space
(R157, log entry 22). -/
def execBreakEnd (s : State) : Outcome State Fault Refusal :=
  lit (if s.line.receiver = .break ∧ s.holdsSpace = false then s.withHold State.breakOver else s)

/-- The idle count has reached the access gap in WAITING_GAP (R154). -/
def State.gapOver (s : State) : Bool :=
  decide (s.line.transmitter = .waitingGap) && s.line.idleFrom.isSome &&
    match s.config with
    | some cfg => decide (accessGap cfg.station s.line.collision * finePerChar ≤ s.idleTime)
    | none => false

/-- ACCESS_GAP_EXPIRY (R154, R155). -/
def execAccessGapExpiry (s : State) : Outcome State Fault Refusal := .next (if s.gapOver then s.beginSend else s)

/-- The echo awaited in SENDING is late (R156). -/
def State.echoLate (s : State) : Bool :=
  match s.line.transmitter with
  | .sending out => decide (echoDeadline out ≤ s.instant)
  | _ => false

/-- ECHO_TIMEOUT (R156): a collision. After the frame's last stop bit the line lies at mark already, and its idle count
goes on from there (R154). -/
def execEchoTimeout (s : State) : Outcome State Fault Refusal :=
  .next (if s.echoLate then { s with line := s.line.cutShort s.instant }.collide else s)

/-- The part's break has lasted its 48 bit times (R157). -/
def State.breakDone (s : State) : Bool :=
  match s.line.transmitter with
  | .sendingBreak release => decide (release ≤ s.instant)
  | _ => false

/-- BREAK_RELEASE (R157). -/
def execBreakRelease (s : State) : Outcome State Fault Refusal := .next (if s.breakDone then s.releaseBreak else s)

/-- The part has held the line at space for a number of bit times, and holds it still (R157). -/
def State.ownSpaceFor (bits : Nat) (s : State) : Bool :=
  match s.line.transmitter with
  | .sendingBreak release => decide (release ≤ s.instant + (48 - bits) * finePerBit) && s.holdsSpace
  | _ => false

/-- The first 11 bit times of the part's own break are heard as a framing error, which drops the frame in progress (R142,
R145, R149); in IDLE and MUTED it would be ignored (R144). -/
def State.ownFramingError (s : State) : Bool := decide (s.line.receiver = .receiving) && s.ownSpaceFor 11

/-- The part's own break is heard as a break after 24 bit times, as any other (R149, R157). -/
def State.ownBreakHeard (s : State) : Bool := decide (s.line.receiver ≠ .break) && s.ownSpaceFor 24

/-- The part's own frame takes the line up: its last stop bit has not ended (R142, R155). -/
def State.takesLine (s : State) : Bool :=
  match s.line.transmitter with
  | .sending out => decide (s.instant < out.over)
  | _ => false

/-- START_BIT (R154): the line leaves mark, and the idle count is restarted. Within the part's own frame the count stands
at 0 up to the end of the frame, start bits and all. -/
def execStartBit (s : State) : Outcome State Fault Refusal :=
  .next (if s.takesLine then s else { s with line := { s.line with idleFrom := none } })

end Sys2Proof.Machine
end

