-- ==== Sys2Proof/Machine/PeerEvents.lean ====
section
/-! DEFINITION. The meanings of the events at the Peer Exchange (09_peer_exchange_and_site_hold.md). An expiry whose
deadline is absent, or lies ahead of the site clock, finds nothing to do (R161, log entry 11). -/

namespace Sys2Proof.Machine

open Sys2Proof
open Host (Outcome)

/-- A peer record has been silent for 15,000 ms (R161). -/
def Peer.silent (now : Nat) (p : Peer) : Bool := decide (p.lastHeard + 15000 ≤ now)

/-- PEER_RECORD_EXPIRY (R161): the record goes with its intent. -/
def execPeerRecordExpiry (entry : Nat) (s : State) : Outcome State Fault Refusal :=
  .next (s.onPeer entry fun p => if p.silent s.clock then none else some p)

/-- A peer record's intent has expired (R161). -/
def Peer.intentOver (now : Nat) (p : Peer) : Bool := expired (p.intent.map Intent.expiry) now

/-- INTENT_EXPIRY (R161): the intent goes, the record stays. -/
def execIntentExpiry (entry : Nat) (s : State) : Outcome State Fault Refusal :=
  .next (s.onPeer entry fun p => some (if p.intentOver s.clock then { p with intent := none } else p))

/-- PRESENCE_DEADLINE (R162). -/
def execPresenceDeadline (s : State) : Outcome State Fault Refusal :=
  .next (if expired s.peers.presenceDeadline s.clock then s.offerPresence else s)

/-- HOLD_IN_RISING (R171): an edge, so nothing when the level is asserted already. -/
def execHoldInRising (s : State) : Outcome State Fault Refusal := lit (if s.peers.holdIn then s else s.holdInRises)

/-- HOLD_IN released, its repeat deadline absent (R171). -/
def State.holdInReleased (s : State) : State :=
  { s with peers := { s.peers with holdIn := false, repeatDeadline := none } }

/-- HOLD_IN_FALLING (R171): an edge, so nothing when the level is released already. -/
def execHoldInFalling (s : State) : Outcome State Fault Refusal :=
  lit (if s.peers.holdIn then s.withHold State.holdInReleased else s)

/-- The repeat deadline has come while HOLD_IN is asserted (R171). -/
def State.repeatOver (s : State) : Bool := s.peers.holdIn && expired s.peers.repeatDeadline s.clock

/-- REPEAT_DEADLINE_EXPIRY (R171): a further break request; the deadline rises by 1,000. -/
def execRepeatDeadlineExpiry (s : State) : Outcome State Fault Refusal :=
  .next
    (if s.repeatOver then
      { s with peers := { s.peers with repeatDeadline := s.peers.repeatDeadline.map (· + 1000) } }.requestBreak
    else s)

/-- The hold deadline made absent (R170). -/
def State.dropHoldDeadline (s : State) : State := { s with peers := { s.peers with holdDeadline := none } }

/-- HOLD_DEADLINE_EXPIRY (R170). -/
def execHoldDeadlineExpiry (s : State) : Outcome State Fault Refusal :=
  lit (if expired s.peers.holdDeadline s.clock then s.withHold State.dropHoldDeadline else s)

end Sys2Proof.Machine
end

