-- ==== Sys2Proof/Machine/Clock.lean ====
section
/-! DEFINITION. What the part does while no command waits (log entry 2): it gives itself an event of its own timers when
one stands, and otherwise lets time pass to the next instant at which one may stand. -/

namespace Sys2Proof.Machine

open Sys2Proof

/-- `[i]` when the condition holds. -/
def whenOn (b : Bool) (i : Instr) : List Instr := if b then [i] else []

/-- The expiries of the target records, from slot `i` on. -/
def recordEvents (now : Nat) : (i : Nat) → List (Option TargetRecord) → List Instr
  | _, [] => []
  | i, none :: os => recordEvents now (i + 1) os
  | i, some r :: os =>
    whenOn (r.dueExpires now) (.dueTimeExpiry i) ++ whenOn (r.deferExpires now) (.deferUntilExpiry i) ++
      recordEvents now (i + 1) os

/-- The expiries of the peer table, from entry `i` on. -/
def peerEvents (now : Nat) : (i : Nat) → List (Option Peer) → List Instr
  | _, [] => []
  | i, none :: os => peerEvents now (i + 1) os
  | i, some p :: os =>
    whenOn (p.silent now) (.peerRecordExpiry i) ++ whenOn (p.intentOver now) (.intentExpiry i) ++
      peerEvents now (i + 1) os

/-- The events that stand at a drive. Those that the last reading makes carry that reading; those that a timer makes
carry a fresh one. -/
def State.driveEvents (ax : Axis) (s : State) : List Instr :=
  let d := s.drive ax
  whenOn (d.arrives ax || d.reporting) (.arrived ax d.raw) ++
    whenOn (d.fineArrives ax) (.fineArrival ax d.raw) ++
    whenOn (d.settleOver s.clock) (.settleEnd ax (s.freeReading ax)) ++
    whenOn (d.seekExhausted ax) (.seekTravelExhausted ax d.raw) ++
    whenOn (d.intervalOver s.clock).isSome (.progressIntervalEnd ax (s.freeReading ax)) ++
    whenOn (d.bridgeFault && decide (d.state ≠ .fault)) (.bridgeFaultInput ax true)

/-- The events that stand at the part's own timers and conditions now. -/
def State.outstanding (s : State) : List Instr :=
  recordEvents s.clock 0 s.table ++
    whenOn (decide (s.decayDue ≤ s.clock)) .blockDecay ++
    whenOn (s.aimExpires .tracking Aim.nextSample) .trackSample ++
    whenOn (s.aimExpires .tracking Aim.dwellDeadline) .trackDwellExpiry ++
    whenOn (s.aimExpires .ranging Aim.waitDeadline) .rangingWaitExpiry ++
    whenOn (s.aimExpires .suspended Aim.abandonDeadline) .abandonDeadlineExpiry ++
    s.driveEvents .hz ++ s.driveEvents .vt ++
    whenOn s.vt.reverses (.vtSeekReversal s.vt.raw) ++
    whenOn (s.vt.beyondLimit .vt && !s.vt.outside) (.vtLimitCrossing s.vt.raw) ++
    whenOn s.windowOver (.windowEnd (s.freeReading .hz) (s.freeReading .vt)) ++
    whenOn s.frameOver .frameEnd ++
    whenOn s.gapOver .accessGapExpiry ++
    whenOn s.echoLate .echoTimeout ++
    whenOn s.ownFramingError (.receiveCharacter .framingError) ++
    whenOn s.ownBreakHeard .breakBegin ++
    whenOn s.breakDone .breakRelease ++
    peerEvents s.clock 0 s.peers.table ++
    whenOn (expired s.peers.presenceDeadline s.clock) .presenceDeadline ++
    whenOn s.repeatOver .repeatDeadlineExpiry ++
    whenOn (expired s.peers.holdDeadline s.clock) .holdDeadlineExpiry

/-- The fine instants at which the optics and the site line have something to do. -/
def State.fineDeadlines (s : State) : List Nat :=
  (match s.light.window with
    | some w => [w.start + finePerWindow]
    | none => []) ++
    (match s.line.idleFrom, s.config with
    | some t, some cfg => [t + 2 * finePerChar, t + accessGap cfg.station s.line.collision * finePerChar]
    | _, _ => []) ++
    (match s.line.transmitter with
    | .sending out => [echoDeadline out]
    | .sendingBreak release => [release - 37 * finePerBit, release - 24 * finePerBit, release]
    | .idle | .waitingGap => [])

/-- The earliest of the instants after `now`, and `bound` when none comes before it. -/
def earliestAfter (now bound : Nat) (ts : List Nat) : Nat := ts.foldl (fun b t => if now < t ∧ t < b then t else b) bound

/-- The next instant at which something may stand: the next millisecond of the site clock (R8), or an earlier fine
deadline. -/
def State.nextInstant (s : State) : Nat :=
  earliestAfter s.instant ((s.clock + 1) * finePerMs) s.fineDeadlines

/-- Time passes to the next instant. -/
def State.passTime (s : State) : State :=
  { s with clock := s.nextInstant / finePerMs, fine := s.nextInstant % finePerMs }

/-- One of the events that stand, by the free choice (log entry 3). -/
def State.chosenEvent (s : State) : Option Instr :=
  s.outstanding[Config.eventChoice s.choices % s.outstanding.length]?

/-- What the part does with no command waiting: an event that stands is put in the queue, or time passes. -/
def State.idle (s : State) : State :=
  match s.outstanding with
  | [] => s.passTime
  | [e] => { s with pending := [e], choices := s.choices + 1 }
  | _ => { s with pending := s.chosenEvent.toList, choices := s.choices + 1 }

end Sys2Proof.Machine
end

