-- ==== Sys2Proof/Machine/Dispatch.lean ====
section
/-! DEFINITION. The dispatch: one arm for every command, each a call of its meaning. -/

namespace Sys2Proof.Machine

open Sys2Proof

def exec (i : Instr) (s : State) : Host.Outcome State Fault Refusal :=
  match i with
  | .powerOnReset holdIn => Sys2Proof.Machine.execPowerOnReset holdIn s
  | .configure args => Sys2Proof.Machine.execConfigure args s
  | .setStation args => Sys2Proof.Machine.execSetStation args s
  | .loadTarget args => Sys2Proof.Machine.execLoadTarget args s
  | .editTarget args => Sys2Proof.Machine.execEditTarget args s
  | .retireTarget prism => Sys2Proof.Machine.execRetireTarget prism s
  | .readTarget slot => Sys2Proof.Machine.execReadTarget slot s
  | .setSector args => Sys2Proof.Machine.execSetSector args s
  | .readSector args => Sys2Proof.Machine.execReadSector args s
  | .run fits => Sys2Proof.Machine.execRun fits s
  | .pause fits => Sys2Proof.Machine.execPause fits s
  | .aimNow prism => Sys2Proof.Machine.execAimNow prism s
  | .range args => Sys2Proof.Machine.execRange args s
  | .takeObservation fits => Sys2Proof.Machine.execTakeObservation fits s
  | .readStatus fits => Sys2Proof.Machine.execReadStatus fits s
  | .readPeers fits => Sys2Proof.Machine.execReadPeers fits s
  | .ackEvents marks => Sys2Proof.Machine.execAckEvents marks s
  | .clearFault axis => Sys2Proof.Machine.execClearFault axis s
  | .siteHold fits => Sys2Proof.Machine.execSiteHold fits s
  | .reset fits => Sys2Proof.Machine.execReset fits s
  | .unknownCommand code => Sys2Proof.Machine.execUnknownCommand code s
  | .responseRead count => Sys2Proof.Machine.execResponseRead count s
  | .dueTimeExpiry slot => Sys2Proof.Machine.execDueTimeExpiry slot s
  | .deferUntilExpiry slot => Sys2Proof.Machine.execDeferUntilExpiry slot s
  | .arrived axis raw => Sys2Proof.Machine.execArrived axis raw s
  | .fineArrival axis raw => Sys2Proof.Machine.execFineArrival axis raw s
  | .windowEnd hzRaw vtRaw => Sys2Proof.Machine.execWindowEnd hzRaw vtRaw s
  | .trackSample => Sys2Proof.Machine.execTrackSample s
  | .trackDwellExpiry => Sys2Proof.Machine.execTrackDwellExpiry s
  | .rangingWaitExpiry => Sys2Proof.Machine.execRangingWaitExpiry s
  | .blockDecay => Sys2Proof.Machine.execBlockDecay s
  | .abandonDeadlineExpiry => Sys2Proof.Machine.execAbandonDeadlineExpiry s
  | .settleEnd axis raw => Sys2Proof.Machine.execSettleEnd axis raw s
  | .indexEdge axis rising raw rest => Sys2Proof.Machine.execIndexEdge axis rising raw rest s
  | .vtSeekReversal raw => Sys2Proof.Machine.execVtSeekReversal raw s
  | .seekTravelExhausted axis raw => Sys2Proof.Machine.execSeekTravelExhausted axis raw s
  | .progressIntervalEnd axis raw => Sys2Proof.Machine.execProgressIntervalEnd axis raw s
  | .bridgeFaultInput axis asserted => Sys2Proof.Machine.execBridgeFaultInput axis asserted s
  | .vtLimitCrossing raw => Sys2Proof.Machine.execVtLimitCrossing raw s
  | .hzSectorCrossing raw => Sys2Proof.Machine.execHzSectorCrossing raw s
  | .returnPulse pulse => Sys2Proof.Machine.execReturnPulse pulse s
  | .identityCode code done => Sys2Proof.Machine.execIdentityCode code done s
  | .receiveCharacter char => Sys2Proof.Machine.execReceiveCharacter char s
  | .frameEnd => Sys2Proof.Machine.execFrameEnd s
  | .breakBegin => Sys2Proof.Machine.execBreakBegin s
  | .breakEnd => Sys2Proof.Machine.execBreakEnd s
  | .accessGapExpiry => Sys2Proof.Machine.execAccessGapExpiry s
  | .echoCharacter char => Sys2Proof.Machine.execEchoCharacter char s
  | .echoTimeout => Sys2Proof.Machine.execEchoTimeout s
  | .breakRelease => Sys2Proof.Machine.execBreakRelease s
  | .peerRecordExpiry entry => Sys2Proof.Machine.execPeerRecordExpiry entry s
  | .intentExpiry entry => Sys2Proof.Machine.execIntentExpiry entry s
  | .presenceDeadline => Sys2Proof.Machine.execPresenceDeadline s
  | .holdInRising => Sys2Proof.Machine.execHoldInRising s
  | .holdInFalling => Sys2Proof.Machine.execHoldInFalling s
  | .repeatDeadlineExpiry => Sys2Proof.Machine.execRepeatDeadlineExpiry s
  | .holdDeadlineExpiry => Sys2Proof.Machine.execHoldDeadlineExpiry s
  | .startBit => Sys2Proof.Machine.execStartBit s

end Sys2Proof.Machine
end

