-- ==== Sys2Proof/Safety.lean ====
section
/-! DEFINITION. What a consistent state of the part is: the conditions of the manual that hold after every step, whatever
the step was. -/

namespace Sys2Proof.Machine

open Sys2Proof

/-- The emitter is ON while all conditions of R128 hold, and OFF while any one fails. -/
def State.lightConsistent (s : State) : Prop := s.light.emitter.isOn = s.lightAllowed

/-- The states an axis may be in while the site hold is in force (R123): no axis is in MOVING, FINE, INDEXING or
SETTLING, and none in READY, which the hold start takes to BRAKED. -/
def AxisState.stillInHold : AxisState → Bool
  | .unindexed | .braked | .fault => true
  | .indexing | .settling | .ready | .moving | .fine => false

/-- While the site hold is in force both axes stand braked, faulted or unindexed (R123). -/
def State.stillInHold (s : State) : Prop :=
  s.held = true → s.hz.state.stillInHold = true ∧ s.vt.state.stillInHold = true

/-- The states in which a drive has a target (R105). -/
def AxisState.hasTarget : AxisState → Bool
  | .settling | .ready | .moving | .fine => true
  | .unindexed | .indexing | .braked | .fault => false

/-- The optional fields of a drive's record are present exactly when R105 says: the fault code in FAULT, the return state
while BRAKED, the target in SETTLING, READY, MOVING and FINE, the index midpoint while the indexed mark is set. -/
structure Drive.Consistent (d : Drive) : Prop where
  fault_present : d.fault.isSome = decide (d.state = .fault)
  return_present : d.returnState.isSome = decide (d.state = .braked)
  target_present : d.target.isSome = d.state.hasTarget
  midpoint_present : d.midpoint.isSome = d.indexed

/-- Both drives' records are consistent. -/
def State.drivesConsistent (s : State) : Prop := s.hz.Consistent ∧ s.vt.Consistent

/-- The engine's records stand with its state (R73, R130): an aim exactly in the aim states, a suspend record exactly in
SUSPENDED, an open observation always in RANGING and besides only in TRACKING, a window in progress exactly in the window
states. -/
structure State.EngineConsistent (s : State) : Prop where
  aim_present : s.engine.aim.isSome = s.engine.state.isAim
  suspension_present : s.engine.suspension.isSome = decide (s.engine.state = .suspended)
  ranging_open : s.engine.state = .ranging → s.engine.openObs.isSome = true
  open_only : s.engine.openObs.isSome = true → s.engine.state = .ranging ∨ s.engine.state = .tracking
  window_present : s.light.window.isSome = s.engine.state.makesWindows

/-- The tables and queues have the sizes the manual gives: 32 slots (R18), 64 sectors (R45), 8 peer entries (R159), at most
16 observations (R185), at most four frames to send (R151), less than a millisecond of fine units. -/
structure State.Sized (s : State) : Prop where
  table_length : s.table.length = 32
  sectors_length : s.sectors.length = 64
  peers_length : s.peers.table.length = 8
  observations_length : s.link.observations.length ≤ 16
  queue_length : s.line.queue.length ≤ 4
  fine_small : s.fine < finePerMs

/-- The ACTIVE record is the aim's (R20): a record is ACTIVE exactly when the aim context names its slot, with its prism
id, and a suspend record names the same slot and prism. -/
structure State.ActiveMatches (s : State) : Prop where
  active_is_aimed : ∀ (i : Nat) (r : TargetRecord), s.table[i]? = some (some r) → r.state = .active →
    ∃ a, s.engine.aim = some a ∧ a.slot = i
  aimed_is_active : ∀ a, s.engine.aim = some a →
    ∃ r, s.table[a.slot]? = some (some r) ∧ r.state = .active ∧ r.prism = a.prism
  suspension_matches : ∀ a u, s.engine.aim = some a → s.engine.suspension = some u →
    u.slot = a.slot ∧ u.prism = a.prism

/-- The laws of the tables that no command of the part breaks: no two records share a prism id or, among MACHINE records,
a blink code (R18); at most 4 misses (R39); block counts at most 15 (R46, R52); the transmit queue with at most one PRESENCE,
one INTENT and one SIGHTING of a prism (R151). -/
structure State.TablesLawful (s : State) : Prop where
  prisms_differ : ∀ (i j : Nat) (r q : TargetRecord), s.table[i]? = some (some r) → s.table[j]? = some (some q) →
    r.prism = q.prism → i = j
  codes_differ : ∀ (i j : Nat) (r q : TargetRecord), s.table[i]? = some (some r) → s.table[j]? = some (some q) →
    r.cls = .machine → q.cls = .machine → r.blink = q.blink → i = j
  misses_bounded : ∀ r : TargetRecord, some r ∈ s.table → r.misses ≤ 4
  blocks_bounded : ∀ e ∈ s.sectors, e.block ≤ 15
  one_presence : s.line.queue.countP (fun f => match f with | .presence .. => true | _ => false) ≤ 1
  one_intent : s.line.queue.countP (fun f => match f with | .intent .. => true | _ => false) ≤ 1
  one_sighting : ∀ p : Nat,
    s.line.queue.countP (fun f => match f with | .sighting q _ _ _ => decide (q = p) | _ => false) ≤ 1

/-! ### Words of the statements -/

/-- The record as the ordinary pass sees it (R60): an IDLE record as it is, a DEFERRED one whose defer-until has come as
returned to IDLE. -/
def TargetRecord.seenAs (now : Nat) (r q : TargetRecord) : Prop :=
  r.state = .idle ∧ q = r ∨
    r.state = .deferred ∧ (∀ t, r.deferUntil = some t → t ≤ now) ∧
      q = { r with state := .idle, deferUntil := none, deferArmed := false }

/-- A candidate of the ordinary pass (R60, R61): a due record that passes the filter, with its direction, its sector and
that sector's block count. -/
def State.IsCandidate (s : State) (c : Candidate) : Prop :=
  (∃ r, s.table[c.slot]? = some (some r) ∧ r.seenAs s.clock c.record) ∧ c.record.due ≤ s.clock ∧
    s.filter c.record = .passes c.direction ∧ c.sector = sectorOf c.direction.azimuth ∧
    c.block = (s.sector c.sector).block

/-- The slot is taken up by an answer (R176): the command is one the part is configured for, taken with the slot EMPTY. -/
def State.LinkReady (s : State) : Prop := s.link.slot = none ∧ s.config.isSome = true

/-- A drive after an accepted CONFIGURE with an index offset (R108): the offset stored; an UNINDEXED drive seeking, its
bridge on at 200 cu per millisecond in the positive direction, or BRAKED to seek later when the hold is in force; a drive
in any other state otherwise unchanged. -/
def DriveConfigured (held : Bool) (now : Nat) (offset : Int) (d e : Drive) : Prop :=
  e.offset = some offset ∧ e.indexed = d.indexed ∧ e.raw = d.raw ∧ e.midpoint = d.midpoint ∧
    (d.state ≠ .unindexed → e = { d with offset := some offset }) ∧
    (d.state = .unindexed → held = false → e.state = .indexing ∧ e.travel = 0 ∧ e.capture = none ∧
      e.interval = some ⟨now, 0⟩ ∧ ∀ ax, e.bridge ax = .seeking 200) ∧
    (d.state = .unindexed → held = true → e.state = .braked ∧ e.returnState = some .indexing ∧ ∀ ax, e.bridge ax = .off)

/-- A drive after RESET (R125), `rest` the raw count at which a braked axis comes to rest: READY, MOVING and FINE settle
at the position of rest for 150 ms; SETTLING loses its pending target; every other state stands. -/
def DriveAfterReset (ax : Axis) (now : Nat) (rest : Int) (d e : Drive) : Prop :=
  ((d.state = .ready ∨ d.state = .moving ∨ d.state = .fine) → e.state = .settling ∧ e.raw = rest ∧
    e.target = some (e.positionOr0 ax) ∧ e.settleEnd = some (now + 150) ∧ e.pendingTarget = none ∧
    e.interval = none) ∧
  (d.state = .settling → e = { d with pendingTarget := none }) ∧
  (d.state = .unindexed ∨ d.state = .indexing ∨ d.state = .braked ∨ d.state = .fault → e = d) ∧
  e.indexed = d.indexed ∧ e.offset = d.offset ∧ e.midpoint = d.midpoint

/-- The interval a record of a class holds (R24). -/
def heldInterval (cls : PrismClass) (interval : Nat) : Nat :=
  if cls = .machine then max 100 (min 60000 interval) else max 10000 (min 86400000 interval)

/-- A drive after CLEAR_FAULT has named it (R122). -/
structure DriveCleared (ax : Axis) (held : Bool) (now : Nat) (d e : Drive) : Prop where
  other_states : d.state ≠ .fault → e = d
  still_asserted : d.state = .fault → d.bridgeFault = true → e.state = .fault ∧ e.fault = some .overcurrent
  settles : d.state = .fault → d.bridgeFault = false → d.indexed = true → d.fault ≠ some .indexMissing →
    e.fault = none ∧ e.indexed = true ∧ e.midpoint = d.midpoint ∧
      (held = false → e.state = .settling ∧ e.target = some (d.positionOr0 ax) ∧ e.settleEnd = some (now + 150)) ∧
      (held = true → e.state = .braked ∧ e.returnState = some .settling)
  seeks : d.state = .fault → d.bridgeFault = false → d.indexed = false ∨ d.fault = some .indexMissing →
    e.fault = none ∧ e.indexed = false ∧ e.midpoint = none ∧
      (held = false → e.state = .indexing ∧ e.travel = 0 ∧ e.capture = none ∧ e.interval = some ⟨now, 0⟩) ∧
      (held = true → e.state = .braked ∧ e.returnState = some .indexing)
  kept : e.raw = d.raw ∧ e.offset = d.offset ∧ e.bridgeFault = d.bridgeFault

/-- A drive at the start of the site hold (R123): braked, to settle or to seek again afterwards; with a brake that is
engaged already it stands. -/
structure DriveHeld (d e : Drive) : Prop where
  settles_after : d.state = .moving ∨ d.state = .fine ∨ d.state = .ready ∨ d.state = .settling →
    e = { d with
      state := .braked, returnState := some .settling, target := none, pendingTarget := none, fault := none
      settleEnd := none, interval := none, reporting := false }
  seeks_after : d.state = .indexing →
    e = { d with
      state := .braked, returnState := some .indexing, target := none, pendingTarget := none, fault := none
      settleEnd := none, interval := none, reporting := false, capture := none, travel := 0 }
  unchanged : d.state = .unindexed ∨ d.state = .braked ∨ d.state = .fault → e = d

/-- A drive at the end of the site hold (R124). -/
structure DriveReleased (ax : Axis) (now : Nat) (d e : Drive) : Prop where
  settles : d.state = .braked → d.returnState = some .settling →
    e.state = .settling ∧ e.target = some (d.positionOr0 ax) ∧ e.settleEnd = some (now + 150) ∧ e.returnState = none
  seeks : d.state = .braked → d.returnState = some .indexing →
    e.state = .indexing ∧ e.travel = 0 ∧ e.capture = none ∧ e.returnState = none
  unchanged : d.state ≠ .braked → e = d
  kept : e.indexed = d.indexed ∧ e.midpoint = d.midpoint ∧ e.offset = d.offset ∧ e.raw = d.raw

/-- A drive taken off its motion by a stop request (R116): READY where it stands; any other state is unchanged. -/
def DriveStopped (ax : Axis) (d e : Drive) : Prop :=
  (d.state.inMotion = true →
    e = { d with state := .ready, target := some (d.positionOr0 ax), interval := none, reporting := false }) ∧
    (d.state.inMotion = false → e = d)

/-- The state from which the end of the site hold goes on to a selection (R173, R124, R57): HOLD_CHANGED pending, both
drives in their return states. -/
structure State.HoldReleased (s u : State) : Prop where
  axes : DriveReleased .hz s.clock s.hz u.hz ∧ DriveReleased .vt s.clock s.vt u.vt
  frame : u = { s with
    hz := u.hz, vt := u.vt, line := u.line, peers := u.peers
    link := { s.link with events := { s.link.events with holdChanged := true } } }

/-- The axis positions after reading both encoders (R138). -/
def State.readBoth (hzRaw vtRaw : Int) (s : State) : State := (s.readAxis .hz hzRaw).readAxis .vt vtRaw

/-- A fine adjustment taken by a drive in READY, MOVING or FINE (R115): FINE, or READY at once within 50 cu; any other
state discards it. -/
def DriveAdjusted (ax : Axis) (target : Int) (d e : Drive) : Prop :=
  (d.state.performs = true →
    e = { d with
      state := if d.distance ax target ≤ 50 then .ready else .fine
      target := some target, interval := none, reporting := false }) ∧
    (d.state.performs = false → e = d)

/-- A move request taken by a drive, its target in range (R113): within 50 cu it is READY at once, with a report; further
off it is MOVING, with a new progress interval; SETTLING keeps the target for later; any other state discards it. -/
structure DriveMoved (ax : Axis) (now : Nat) (target : Int) (d e : Drive) : Prop where
  near : d.state.performs = true → d.distance ax target ≤ 50 →
    e = { d with state := .ready, target := some target, interval := none, reporting := true }
  far : d.state.performs = true → 50 < d.distance ax target →
    e = { d with
      state := .moving, target := some target, interval := some ⟨now, d.distance ax target⟩, reporting := false }
  stored : d.state = .settling → e = { d with pendingTarget := some target }
  discarded : d.state = .unindexed ∨ d.state = .indexing ∨ d.state = .braked ∨ d.state = .fault → e = d

/-- The line after a frame has been offered (R152, R154): placed in the queue, with an IDLE transmitter then waiting for
the gap; nothing when the part is listen-only or not configured. -/
def SiteLine.offered (f : Frame) (configured : Bool) (l : SiteLine) : SiteLine :=
  if l.listenOnly = false ∧ configured = true then
    { l with
      queue := placeFrame f l.queue
      transmitter := if l.transmitter = .idle then .waitingGap else l.transmitter }
  else l

/-- What the idle count runs from once a character on the line leaves it at mark from an instant on (R154): that instant,
unless a break holds the line at space, the receiver's or the part's own. -/
def State.markFrom (s : State) (t : Nat) : Option Nat :=
  match s.line.transmitter with
  | .sendingBreak _ => s.line.idleFrom
  | _ => if s.line.receiver = .break then s.line.idleFrom else some t

/-- The first record of the table that carries a prism id stands in slot `k`. -/
def State.Carries (s : State) (k : Nat) (r : TargetRecord) (prism : Nat) : Prop :=
  s.table[k]? = some (some r) ∧ r.prism = prism ∧
    ∀ (j : Nat) (q : TargetRecord), j < k → s.table[j]? = some (some q) → q.prism ≠ prism

/-- What closing the open observation `o` leaves (R93), at the distance of a RANGE or at none: the observation given to
the queue (R185) and none open; at its grid position (R17) an own fix of its lock time, of quality 15 or 6 (R32), which
becomes fix A unless fix A is as late, the old one moving into fix B (R31) and the velocity following (R35); a SIGHTING
for a ranged fix that became fix A of a record that is not CONTROL (R33); the ranged mark (step 5). -/
structure State.ObservationClosed (range : Option Nat) (o : OpenObs) (s t : State) : Prop where
  queued : t.link = (s.giveObservation ⟨o.seq, o.kind, o.prism, o.lockTime, o.hz, o.v,
    if range.isSome then .ranged else .angleOnly, range, observationGrid s.setup o.hz o.v (range.getD o.heldSd),
    o.identified⟩).link
  unknown : (∀ r : TargetRecord, some r ∈ s.table → r.prism ≠ o.prism) ∨ s.setup = none →
    t.table = s.table ∧ t.line = s.line
  late : ∀ k r a, s.Carries k r o.prism → r.fixA = some a → o.lockTime ≤ a.time → t.table = s.table ∧ t.line = s.line
  fixed : ∀ k r g f, s.Carries k r o.prism → observationGrid s.setup o.hz o.v (range.getD o.heldSd) = some g →
    f = ⟨g, o.lockTime, .own, if range.isSome then 15 else 6⟩ → (∀ a, r.fixA = some a → a.time < o.lockTime) →
    t.table = s.table.set k (some { r with
      fixA := some f, fixB := r.fixA, velocity := velocityOf r.cls (some f) r.fixA }) ∧
      t.line = if range.isSome ∧ r.cls ≠ .control then
        s.line.offered (.sighting o.prism g o.lockTime 15) s.config.isSome else s.line
  frame : t = { s with
    table := t.table
    link := t.link
    line := t.line
    engine := { s.engine with
      openObs := none
      aim := if range.isSome then s.engine.aim.map fun a => { a with ranged := true } else s.engine.aim } }

/-- The open observation, if there is one, closed ANGLE_ONLY (R95 step 1). -/
def State.OpenClosed (s t : State) : Prop :=
  (s.engine.openObs = none → t = s) ∧ ∀ o, s.engine.openObs = some o → State.ObservationClosed none o s t

/-- The record at the end of an aim by an outcome that keeps its due time, misses and lost flag (R37, R40): the outcome
stored; DEFERRED while the defer-until lies ahead, and else IDLE with none. -/
def TargetRecord.EndedAs (now : Nat) (o : AimOutcome) (r q : TargetRecord) : Prop :=
  ((∃ t, r.deferUntil = some t ∧ now < t) → q = { r with lastOutcome := some o, state := .deferred }) ∧
    ((∀ t, r.deferUntil = some t → t ≤ now) →
      q = { r with lastOutcome := some o, state := .idle, deferUntil := none, deferArmed := false })

/-- The table and the command link at the end of the aim `a` on the record `r` by such an outcome (R95 steps 1 to 3): in a
running aim the open observation closed ANGLE_ONLY and its own fix offered, SUSPENDED has none; then the record ended.
`mark` is what the event that ends the aim does to the link besides. -/
def State.AimStopped (o : AimOutcome) (mark : CommandLink → CommandLink) (a : Aim) (r : TargetRecord) (s t : State) : Prop :=
  ∃ (u : State) (p q : TargetRecord), (s.engine.state.isRunningAim = true → s.OpenClosed u) ∧
    (s.engine.state = .suspended → u = s) ∧ u.table[a.slot]? = some (some p) ∧
    p = { r with fixA := p.fixA, fixB := p.fixB, velocity := p.velocity } ∧ p.EndedAs s.clock o q ∧
    t.table = u.table.set a.slot (some q) ∧ t.link = mark u.link

/-- AXIS_FAULT made pending (R120, R187). -/
def CommandLink.faultRaised (l : CommandLink) : CommandLink := { l with events := { l.events with axisFault := true } }

/-- What a fault of a drive that was not in FAULT leaves (R120, R98): the drive in FAULT with its code and without target
or return state, AXIS_FAULT pending, the engine STOPPED with no aim, the other axis stopped when an aim was running, no
window and no light; an aim in progress ended FAULTED, its observation closed; and nothing else changed. -/
structure State.FaultTaken (ax : Axis) (code : FaultCode) (s t : State) : Prop where
  drive : t.drive ax = { s.drive ax with
    state := .fault, fault := some code, target := none, pendingTarget := none, returnState := none, capture := none
    travel := 0, settleEnd := none, interval := none, reporting := false }
  other : s.engine.state.isRunningAim = true → DriveStopped (otherAxis ax) (s.drive (otherAxis ax)) (t.drive (otherAxis ax))
  otherKept : s.engine.state.isRunningAim = false → t.drive (otherAxis ax) = s.drive (otherAxis ax)
  engine : t.engine = ⟨.stopped, none, none, none, s.engine.sequence,
    if s.engine.state = .stopped then s.engine.dwelling else false⟩
  noAim : s.engine.state.isAim = false → t.table = s.table ∧ t.link = s.link.faultRaised
  aimed : ∀ a r, s.engine.state.isAim = true → s.engine.aim = some a → s.table[a.slot]? = some (some r) →
    State.AimStopped .faulted CommandLink.faultRaised a r s t
  dark : t.light = { s.light with window := none, emitter := .off }
  frame : t = { s with table := t.table, engine := t.engine, hz := t.hz, vt := t.vt, light := t.light, link := t.link }

/-- HOLD_CHANGED made pending (R173, R187). -/
def CommandLink.holdRaised (l : CommandLink) : CommandLink := { l with events := { l.events with holdChanged := true } }

/-- What the start of the site hold leaves (R173, R100, R123), the hold's source apart: HOLD_CHANGED pending, both axes
braked, no light. A running aim has its observation closed ANGLE_ONLY and its own fix offered, its suspend record made, its
timers, awaited moves and counters cleared and its abandon deadline set, and its window dropped: the engine is SUSPENDED. -/
structure State.HoldStarted (s t : State) : Prop where
  inForce : t.held = true
  raised : t.link.events.holdChanged = true
  axes : DriveHeld s.hz t.hz ∧ DriveHeld s.vt t.vt
  notRunning : s.engine.state.isRunningAim = false → t.engine = s.engine ∧ t.table = s.table ∧
    t.link = s.link.holdRaised ∧ t.light = { s.light with emitter := .off }
  suspended : ∀ a, s.engine.state.isRunningAim = true → s.engine.aim = some a → ∃ u : State, s.OpenClosed u ∧
    t.table = u.table ∧ t.link = u.link.holdRaised ∧ t.light = { s.light with window := none, emitter := .off } ∧
    t.engine = { s.engine with
      state := .suspended
      dwelling := false
      openObs := none
      suspension := some ⟨a.slot, a.prism, s.engine.state, a.attempt, a.source, a.index, s.clock⟩
      aim := some { a with
        dwellDeadline := none, nextSample := none, waitDeadline := none, awaitHz := false, awaitVt := false
        inTolerance := 0, nonOwn := 0, mixed := 0, abandonDeadline := some (s.clock + 10000) } }
  frame : t = { s with
    table := t.table, engine := t.engine, hz := t.hz, vt := t.vt, light := t.light, line := t.line, peers := t.peers
    link := t.link }

/-- The aim context replaced. -/
def State.withAim (a : Aim) (s : State) : State := { s with engine := { s.engine with aim := some a } }

/-- What a prediction must meet to be handed over (R61, R68): a direction in an OPEN sector, within its vertical band. -/
structure State.FilterPassed (s : State) (r : TargetRecord) (d : Direction) : Prop where
  predicted : ∃ p, r.prediction s.clock = some p ∧ directionTo s.setup p = .given d
  sky : (s.sector (sectorOf d.azimuth)).mode = .opened
  band : ((s.sector (sectorOf d.azimuth)).vmin : Int) ≤ d.v ∧ d.v ≤ (s.sector (sectorOf d.azimuth)).vmax

/-- A hand-over (R68, R69, R76): the record passes the filter and becomes ACTIVE; the engine slews with a fresh aim
context; both axes move to the direction; a MACHINE record's INTENT is offered; it is dark. -/
structure State.HandedOver (slot : Nat) (r : TargetRecord) (d : Direction) (s t : State) : Prop where
  passed : s.FilterPassed r d
  record : t.table[slot]? = some (some { r with state := .active })
  engine : t.engine = { s.engine with
    state := .slewing
    dwelling := false
    aim := some
      { slot := slot, prism := r.prism, planStep := if r.fixA.isSome then 1 else 2, attempt := 1,
        source := if r.fixA.isSome then .predicted else .nominal, centre := ⟨d.hz, d.v⟩, centreSd := d.sd,
        width := r.widthAt s.clock d.sd, rings := ringCount (r.widthAt s.clock d.sd), index := 0, dwellCount := 0,
        reslews := 0, sector := none, inTolerance := 0, nonOwn := 0, mixed := 0, codeSeen := false, lastLock := none,
        ranged := false, dwellDeadline := none, nextSample := none, latestOwn := none, ownSince := false,
        waitDeadline := none, abandonDeadline := none, awaitHz := true, awaitVt := true } }
  intent : t.line = if r.cls = .machine then
    s.line.offered (.intent r.prism d.sd (r.dwell.getD 0 + 1000)) s.config.isSome else s.line
  axes : DriveMoved .hz s.clock (d.hz % 4000000) s.hz t.hz ∧
    DriveMoved .vt s.clock (max 200000 (min 1800000 d.v)) s.vt t.vt
  dark : t.light = { s.light with window := none, emitter := .off }
  frame : t = { s with
    table := t.table, engine := t.engine, hz := t.hz, vt := t.vt, light := t.light, line := t.line, forced := t.forced }

/-- What the ordinary pass leaves of a record that it does not hand over (R60, R62, R44): one that is not due, or has no
prediction, or passes, as it is seen; a due one that fails a geometric test marked UNREACHABLE, due again in 10,000 ms. -/
structure State.LeftAs (s : State) (r p : TargetRecord) : Prop where
  active : r.state = .active → p = r
  deferred : r.state = .deferred → (∃ t, r.deferUntil = some t ∧ s.clock < t) → p = r
  notDue : ∀ q : TargetRecord, r.seenAs s.clock q → s.clock < q.due → p = q
  passes : ∀ (q : TargetRecord) (d : Direction), r.seenAs s.clock q → s.filter q = .passes d → p = q
  unpredicted : ∀ q : TargetRecord, r.seenAs s.clock q → s.filter q = .fails .noPrediction → p = q
  marked : ∀ (q : TargetRecord) (why : FilterFail) (reason : UnreachableReason), r.seenAs s.clock q → q.due ≤ s.clock →
    s.filter q = .fails why → why.reason = some reason →
    p = { q with due := s.clock + 10000, dueArmed := true, lastOutcome := some (.unreachable reason) }

/-- A plan step that is not skipped, with its direction (R78): PREDICTED with fix A and a direction; NOMINAL with a
direction that does not lie within W/2 of the predicted one. -/
def State.StepOpen (s : State) (r : TargetRecord) (step : Nat) (d : Direction) : Prop :=
  step % 2 = 1 ∧ r.fixA.isSome = true ∧ s.sourceDirection .predicted r = some d ∨
    step % 2 = 0 ∧ s.sourceDirection .nominal r = some d ∧
      ∀ p, r.fixA.isSome = true → s.sourceDirection .predicted r = some p →
        beyondHalfWidth (r.widthAt s.clock d.sd) d.hz d.v p.hz p.v = true

/-- The end of an attempt of the aim `a` (R78, R79, R85): the first step not skipped begins the next one in SEARCHING at
index 0, about its direction or, after a loss in centring, about where the axes stand; with none left the aim ends
MISSED. -/
structure State.AttemptEnded (lost : Bool) (a : Aim) (r : TargetRecord) (s t : State) : Prop where
  begun : ∀ step d, a.planStep < step → step ≤ 4 → s.StepOpen r step d →
    (∀ j e, a.planStep < j → j < step → ¬ s.StepOpen r j e) →
    ∃ c : Angles, c = (if lost then
        ⟨s.hz.positionOr0 .hz, max 200000 (min 1800000 (s.vt.positionOr0 .vt))⟩ else ⟨d.hz, d.v⟩) ∧
      t = { s with
        engine := { s.engine with
          state := .searching
          dwelling := false
          aim := some { a with
            planStep := step, attempt := a.attempt + 1, source := if step % 2 = 1 then .predicted else .nominal
            centre := c, centreSd := d.sd, width := r.widthAt s.clock d.sd
            rings := ringCount (r.widthAt s.clock d.sd), index := 0, dwellCount := 0, inTolerance := 0, nonOwn := 0
            mixed := 0, codeSeen := false, ownSince := false, awaitHz := true, awaitVt := true } }
        hz := t.hz
        vt := t.vt
        light := { s.light with emitter := .off } } ∧
      DriveMoved .hz s.clock (c.hz % 4000000) s.hz t.hz ∧
      DriveMoved .vt s.clock (max 200000 (min 1800000 c.v)) s.vt t.vt
  missed : (∀ step d, a.planStep < step → step ≤ 4 → ¬ s.StepOpen r step d) →
    t = (s.finishAim .missed none).enterWaiting

/-- The engine sent on to a search position (R81): both axes moving there, not dwelling, in the dark. -/
def State.SearchingAt (index : Nat) (a : Aim) (s t : State) : Prop :=
  t = { s with
    engine := { s.engine with
      state := .searching
      dwelling := false
      aim := some { a with index := index, dwellCount := 0, awaitHz := true, awaitVt := true } }
    hz := t.hz
    vt := t.vt
    light := { s.light with emitter := .off } } ∧
  DriveMoved .hz s.clock ((a.centre.hz + 12000 * (searchOffset index).1) % 4000000) s.hz t.hz ∧
  DriveMoved .vt s.clock (max 200000 (min 1800000 (a.centre.v + 12000 * (searchOffset index).2))) s.vt t.vt

/-- The window carries an identity code that is not the target's (R82). -/
def TargetRecord.SeesWrongCode (r : TargetRecord) (m : WindowReport) : Prop :=
  ∃ c, m.code = some c ∧ ¬ (r.cls = .machine ∧ r.blink = some c)

/-- A wrong prism seen (R83): a CHANCE observation of the MACHINE record that carries the code, if any, given to the queue
under the next sequence number; the attempt ends. -/
def State.WrongPrismSeen (a : Aim) (r : TargetRecord) (m : WindowReport) (s t : State) : Prop :=
  ∃ u, State.AttemptEnded false a r u t ∧
    (∀ c, m.code = some c →
      (∀ q : TargetRecord, some q ∈ s.table → q.cls = .machine → q.blink ≠ some c) → u = s) ∧
    ∀ (c k : Nat) (q : TargetRecord) (dx dy : Int), m.code = some c → m.offsets = some (dx, dy) →
      s.table[k]? = some (some q) → q.cls = .machine → q.blink = some c →
      (∀ (j : Nat) (p : TargetRecord), j < k → s.table[j]? = some (some p) → p.cls = .machine → p.blink ≠ some c) →
      u = { s with
        engine := { s.engine with sequence := (s.engine.sequence + 1) % 65536 }
        link := (s.giveObservation ⟨s.engine.sequence, .chance, q.prism, s.clock, (m.hz + dx) % 4000000,
          max 200000 (min 1800000 (m.vt + dy)), .angleOnly, none, none, true⟩).link }

/-- The yield test of R86 on a MIXED window that brings the MIXED count to `n`. -/
def State.MixedYields (n : Nat) (r : TargetRecord) (m : WindowReport) (s : State) : Prop :=
  6 ≤ n ∧ r.cls = .machine ∧ ∃ f cfg, m.dominant = some f ∧ s.config = some cfg ∧ f < cfg.station

/-- Both axes adjusted onto the spot of a window (R84 step 1). -/
def State.Adjusted (m : WindowReport) (s t : State) : Prop :=
  ∀ dx dy, m.offsets = some (dx, dy) →
    DriveAdjusted .hz ((m.hz + dx) % 4000000) s.hz t.hz ∧
      DriveAdjusted .vt (max 200000 (min 1800000 (m.vt + dy))) s.vt t.vt

/-- The engine looks for its target: ACQUIRING, or SEARCHING while dwelling (R82). -/
def State.looking (s : State) : Prop :=
  s.engine.state = .acquiring ∨ s.engine.state = .searching ∧ s.engine.dwelling = true

/-- What the engine makes of a window report, with the aim `a` on the record `r` (R81 to R86, R89, R90). -/
structure State.WindowTaken (a : Aim) (r : TargetRecord) (m : WindowReport) (s t : State) : Prop where
  notDwelling : s.engine.state = .searching → s.engine.dwelling = false → t = s
  wrongPrism : s.looking ∨ s.engine.state = .centring → m.cls = .own → r.SeesWrongCode m → s.WrongPrismSeen a r m t
  found : s.looking → m.cls = .own → ¬ r.SeesWrongCode m → ∀ dx dy, m.offsets = some (dx, dy) →
    s.Adjusted m t ∧ t = { s with
      engine := { s.engine with
        state := .centring
        dwelling := false
        aim := some { a with
          inTolerance := if dx.natAbs ≤ 20 ∧ dy.natAbs ≤ 20 then 1 else 0, nonOwn := 0, mixed := 0
          codeSeen := m.code.isSome, ownSince := false } }
      hz := t.hz
      vt := t.vt }
  acquiring : ∀ b, s.engine.state = .acquiring → m.cls ≠ .own → b = { a with dwellCount := a.dwellCount + 1 } →
    (b.dwellCount < 4 → t = s.withAim b) ∧
      (4 ≤ b.dwellCount → a.rings = 0 → State.AttemptEnded false b r (s.withAim b) t) ∧
      (4 ≤ b.dwellCount → 0 < a.rings → State.SearchingAt 1 a s t)
  searching : ∀ b, s.engine.state = .searching → s.engine.dwelling = true → m.cls ≠ .own →
    b = { a with dwellCount := a.dwellCount + 1 } →
    (b.dwellCount < 2 → t = s.withAim b) ∧
      (2 ≤ b.dwellCount → 4 * a.rings * (a.rings + 1) ≤ a.index → State.AttemptEnded false b r (s.withAim b) t) ∧
      (2 ≤ b.dwellCount → a.index < 4 * a.rings * (a.rings + 1) → State.SearchingAt (a.index + 1) a s t)
  centringMixed : ∀ b, s.engine.state = .centring → m.cls = .mixed → b = { a with inTolerance := 0, mixed := a.mixed + 1 } →
    (s.MixedYields b.mixed r m → t = ((s.withAim b).finishAim .yielded (some (s.clock + 3000))).enterWaiting) ∧
      (¬ s.MixedYields b.mixed r m → b.mixed < 20 → t = s.withAim b) ∧
      (¬ s.MixedYields b.mixed r m → 20 ≤ b.mixed → State.AttemptEnded false b r (s.withAim b) t)
  centringLost : ∀ b, s.engine.state = .centring → m.cls ≠ .own → m.cls ≠ .mixed →
    b = { a with inTolerance := 0, mixed := 0, nonOwn := a.nonOwn + 1 } →
    (b.nonOwn < 3 → t = s.withAim b) ∧ (3 ≤ b.nonOwn → State.AttemptEnded true b r (s.withAim b) t)
  rangingOwn : s.engine.state = .ranging → m.cls = .own → ¬ r.SeesWrongCode m →
    s.Adjusted m t ∧ t = { s with hz := t.hz, vt := t.vt }
  rangingOther : s.engine.state = .ranging → m.cls ≠ .own ∨ r.SeesWrongCode m → t = s
  trackingOwn : s.engine.state = .tracking → m.cls = .own → ¬ r.SeesWrongCode m → ∀ dx dy, m.offsets = some (dx, dy) →
    s.Adjusted m t ∧ t = { s with
      engine := { s.engine with aim := some { a with
        latestOwn := some ⟨(m.hz + dx) % 4000000, max 200000 (min 1800000 (m.vt + dy))⟩
        ownSince := true, codeSeen := a.codeSeen || m.code.isSome, nonOwn := 0, mixed := 0 } }
      hz := t.hz
      vt := t.vt }
  trackingMixed : ∀ b, s.engine.state = .tracking → m.cls = .mixed → b = { a with mixed := a.mixed + 1 } →
    (s.MixedYields b.mixed r m → t = ((s.withAim b).finishAim .yielded (some (s.clock + 3000))).enterWaiting) ∧
      (¬ s.MixedYields b.mixed r m → t = s.withAim b)
  trackingLost : ∀ b, s.engine.state = .tracking → m.cls = .own ∧ r.SeesWrongCode m ∨ m.cls ≠ .own ∧ m.cls ≠ .mixed →
    b = { a with mixed := 0, nonOwn := a.nonOwn + 1 } →
    (b.nonOwn < 10 → t = s.withAim b) ∧ (10 ≤ b.nonOwn → t = ((s.withAim b).finishAim .trackLost none).enterWaiting)

/-- The place of a class in the order of R67. -/
def PrismClass.place : PrismClass → Nat
  | .machine => 1
  | .control => 2
  | .monitor => 3

end Sys2Proof.Machine
end

