-- ==== Sys2Proof/Certificates/Slice0/Obligations.lean ====
section
/-! DEFINITION. The statements about the model, for the provers. -/

open Sys2Proof Sys2Proof.Machine
open Host (Outcome)

/-! ### The step and the invariants -/

/-- The command at the front of the queue is taken, the rest left waiting. -/
def Obligations.StepTakesFront : Prop :=
  ∀ (s : State) (c : Instr) (rest : List Instr), s.pending = c :: rest → step s = exec c { s with pending := rest }

/-- With no command waiting, one of the events that stand is put in the queue, and with none standing time passes, by no
more than to the next millisecond of the site clock. The model's choice (log entries 2 and 3). -/
def Obligations.IdleStep : Prop :=
  ∀ s : State, s.pending = [] → s.fine < finePerMs →
    (s.outstanding ≠ [] → ∃ e ∈ s.outstanding, step s = .next { s with pending := [e], choices := s.choices + 1 }) ∧
      (s.outstanding = [] →
        ∃ t, step s = .next t ∧ t = { s with clock := t.clock, fine := t.fine } ∧ t.fine < finePerMs ∧
          s.instant < t.instant ∧ t.instant ≤ (s.clock + 1) * finePerMs)

/-- The state right after reset meets every invariant below. -/
def Obligations.ResetMeetsInvariants : Prop :=
  State.reset.lightConsistent ∧ State.reset.stillInHold ∧ State.reset.drivesConsistent ∧
    State.reset.EngineConsistent ∧ State.reset.ActiveMatches ∧ State.reset.Sized ∧ State.reset.TablesLawful

/-- After every step the emitter is ON exactly while all conditions of R128 hold. -/
def Obligations.StepKeepsLightConsistent : Prop :=
  ∀ s t : State, s.lightConsistent → step s = .next t → t.lightConsistent

/-- While the site hold is in force no axis is in MOVING, FINE, INDEXING or SETTLING, nor READY. -/
def Obligations.StepKeepsAxesStillInHold : Prop :=
  ∀ s t : State, s.stillInHold → step s = .next t → t.stillInHold

/-- The optional fields of both drives' records stay present exactly in the states R105 gives. -/
def Obligations.StepKeepsDrivesConsistent : Prop :=
  ∀ s t : State, s.drivesConsistent → step s = .next t → t.drivesConsistent

/-- The aim context, the suspend record, the open observation and the window in progress stay as the engine's state has
them. -/
def Obligations.StepKeepsEngineConsistent : Prop :=
  ∀ s t : State, s.EngineConsistent → step s = .next t → t.EngineConsistent

/-- The ACTIVE record stays the one the aim context names. -/
def Obligations.StepKeepsActiveRecord : Prop :=
  ∀ s t : State, s.EngineConsistent → s.ActiveMatches → step s = .next t → t.ActiveMatches

/-- The tables keep their sizes and the queues their bounds; no two records come to share a prism id or a blink code, no
record has more than 4 misses and no sector a block count above 15, and the transmit queue keeps at most one PRESENCE, one
INTENT and one SIGHTING of a prism. -/
def Obligations.StepKeepsSizes : Prop :=
  (∀ s t : State, s.Sized → step s = .next t → t.Sized) ∧
    ∀ s t : State, s.TablesLawful → step s = .next t → t.TablesLawful

/-! ### The command link -/

/-- A command taken with a response unread is discarded, and the response replaced by SEQUENCE_ERROR (R178). -/
def Obligations.UnreadResponseDiscardsCommand : Prop :=
  ∀ (c : Instr) (n : Nat) (s : State), c.commandByte = some n → s.link.slot.isSome = true → s.lightConsistent →
    exec c s = .next { s with link := { s.link with slot := some ⟨n, .refused .sequenceError⟩ } }

/-- The tests of R180 on a command taken with the slot EMPTY, in their order, each with nothing else changed: an unknown
code, a length that does not match, a command before CONFIGURE. That AIM_NOW's refusal for length carries the filter
result 0 is the model's reading of R196 (log entry 12). -/
def Obligations.LinkTestsRefuse : Prop :=
  ∀ (c : Instr) (n : Nat) (s : State), c.commandByte = some n → s.link.slot = none → s.lightConsistent →
    ((∃ code, c = .unknownCommand code) → exec c s =
      .next { s with link := { s.link with slot := some ⟨n, .refused .unknownCommand⟩ } }) ∧
    (c.mismatched = true → exec c s = .next { s with link := { s.link with
      slot := some ⟨n, if n = 11 then .aimRefused none else .refused .badValue⟩ } }) ∧
    ((∀ code, c ≠ .unknownCommand code) → c.mismatched = false → n ≠ 1 → n ≠ 14 → n ≠ 19 → s.config = none →
      exec c s = .next { s with link := { s.link with slot := some ⟨n, .refused .notConfigured⟩ } })

/-- A read completes when the whole response is clocked out, which empties the slot and takes a reported observation off
the queue; a shorter read, or one of an EMPTY slot, changes nothing (R179, R186). -/
def Obligations.ResponseReadEmptiesSlot : Prop :=
  ∀ (n : Nat) (s : State),
    (s.link.slot = none → exec (.responseRead n) s = .next s) ∧
      ∀ r, s.link.slot = some r →
        (n < (responseBytes r).length → exec (.responseRead n) s = .next s) ∧
          ((responseBytes r).length ≤ n →
            exec (.responseRead n) s = .next { s with link := { s.link with
              slot := none
              observations := match r.answer with
                | .ok (.observation _) => s.link.observations.tail
                | _ => s.link.observations } })

/-- READ_TARGET reports a FREE slot as free and any other with its fields and its prediction, and changes nothing
(R29). -/
def Obligations.ReadTargetReports : Prop :=
  ∀ (k : Nat) (s : State), s.LinkReady →
    (31 < k → exec (.readTarget (some k)) s =
      .next { s with link := { s.link with slot := some ⟨6, .refused .badValue⟩ } }) ∧
    (k ≤ 31 → s.record k = none → exec (.readTarget (some k)) s =
      .next { s with link := { s.link with slot := some ⟨6, .ok (.freeSlot k)⟩ } }) ∧
    (∀ r, k ≤ 31 → s.record k = some r → exec (.readTarget (some k)) s =
      .next { s with link := { s.link with slot := some ⟨6, .ok (.target ⟨k, r, r.prediction s.clock⟩)⟩ } })

/-- READ_SECTOR reports every sector of the range, counted upwards from the first and passing from 63 to 0, in order, and
changes nothing (R48, R51). -/
def Obligations.ReadSectorReports : Prop :=
  ∀ (a : SectorRange) (s : State), s.LinkReady →
    ((63 < a.first ∨ 63 < a.last) → exec (.readSector (some a)) s =
      .next { s with link := { s.link with slot := some ⟨8, .refused .badValue⟩ } }) ∧
    (a.first ≤ 63 → a.last ≤ 63 → ∃ items : List (Nat × Sector),
      items.length = (a.last + 64 - a.first) % 64 + 1 ∧
        (∀ k, k < items.length → items[k]? = some ((a.first + k) % 64, s.sector ((a.first + k) % 64))) ∧
        exec (.readSector (some a)) s =
          .next { s with link := { s.link with slot := some ⟨8, .ok (.sectors items)⟩ } })

/-- TAKE_OBSERVATION is refused EMPTY on an empty queue, and else answers with the head, which stays (R186). -/
def Obligations.TakeObservationReportsHead : Prop :=
  ∀ s : State, s.LinkReady →
    (s.link.observations = [] → exec (.takeObservation true) s =
      .next { s with link := { s.link with slot := some ⟨13, .refused .empty⟩ } }) ∧
    (∀ o rest, s.link.observations = o :: rest → exec (.takeObservation true) s =
      .next { s with link := { s.link with slot := some ⟨13, .ok (.observation o)⟩ } })

/-- READ_STATUS is answered OK, configured or not, with every item of R190 as it stands, and changes nothing. That the
positions are those last read is the model's choice (log entry 28). -/
def Obligations.ReadStatusReports : Prop :=
  ∀ s : State, s.link.slot = none →
    exec (.readStatus true) s = .next { s with link := { s.link with slot := some ⟨14, .ok (.status
      { clock := s.clock
        config := s.config
        listenOnly := s.line.listenOnly
        clash := s.peers.clash
        setup := s.setup
        engine := s.engine.state
        aim := s.engine.aim.map fun a => ⟨a.slot, a.prism, a.attempt, a.source, a.index, a.sector⟩
        suspendedAt := s.engine.suspension.map fun u => u.time
        openSeq := s.engine.openObs.map fun o => o.seq
        sequence := s.engine.sequence
        forced := s.forced
        records := s.table.countP Option.isSome
        hz := ⟨s.hz.state, s.hz.indexed, s.hz.position .hz, s.hz.fault⟩
        vt := ⟨s.vt.state, s.vt.indexed, s.vt.position .vt, s.vt.fault⟩
        emitterOn := decide (s.light.emitter ≠ .off)
        last := s.light.last
        inForce := s.peers.holdIn || decide (s.line.receiver = .break) || s.peers.holdDeadline.isSome
        holdIn := s.peers.holdIn
        inBreak := decide (s.line.receiver = .break)
        holdDeadline := s.peers.holdDeadline
        receiver := s.line.receiver
        transmitter := match s.line.transmitter with
          | .idle => 1
          | .waitingGap => 2
          | .sending _ => 3
          | .sendingBreak _ => 4
        queued := s.line.queue.length
        observations := s.link.observations.length
        events := s.link.events })⟩ } }

/-- READ_PEERS reports each non-empty entry with its number and its fields, an intent whose expiry has come being absent,
and changes nothing (R159, R161, R191, log entry 21). -/
def Obligations.ReadPeersReports : Prop :=
  ∀ s : State, s.LinkReady → ∃ items : List (Nat × Peer),
    exec (.readPeers true) s = .next { s with link := { s.link with slot := some ⟨15, .ok (.peers s.clock items)⟩ } } ∧
      items.Pairwise (fun x y => x.1 < y.1) ∧
      ∀ i q, (i, q) ∈ items ↔ ∃ p, s.peers.table[i]? = some (some p) ∧
        q = { p with intent := p.intent.filter fun u => decide (s.clock < u.expiry) }

/-- ACK_EVENTS clears the events it names and no other, and answers with those still pending (R189); attention stays
asserted while any is pending (R188). -/
def Obligations.AckEventsClearsNamed : Prop :=
  ∀ (m : EventSet) (s : State), s.LinkReady → ∃ e : EventSet,
    exec (.ackEvents (some m)) s =
        .next { s with link := { s.link with slot := some ⟨16, .ok (.events e)⟩, events := e } } ∧
      e = ⟨s.link.events.observation && !m.observation, s.link.events.queueFull && !m.queueFull,
        s.link.events.targetLost && !m.targetLost, s.link.events.axisFault && !m.axisFault,
        s.link.events.holdChanged && !m.holdChanged, s.link.events.stationClash && !m.stationClash,
        s.link.events.axesReady && !m.axesReady, s.link.events.forcedDropped && !m.forcedDropped⟩ ∧
      ∀ t, exec (.ackEvents (some m)) s = .next t → (t.attention = false ↔ e = EventSet.clear)

/-- An observation given to the queue joins at the tail while fewer than 16 are there, raising OBSERVATION on an empty
queue; with 16 there it is discarded and QUEUE_FULL raised (R185). -/
def Obligations.ObservationQueueBounded : Prop :=
  ∀ (o : Observation) (s : State),
    (s.link.observations = [] → s.giveObservation o = { s with link := { s.link with
      observations := [o], events := { s.link.events with observation := true } } }) ∧
    (0 < s.link.observations.length → s.link.observations.length < 16 →
      s.giveObservation o = { s with link := { s.link with observations := s.link.observations ++ [o] } }) ∧
    (16 ≤ s.link.observations.length →
      s.giveObservation o = { s with link := { s.link with events := { s.link.events with queueFull := true } } })

/-! ### Configuration, resets -/

/-- POWER_ON_RESET with HOLD_IN released gives the reset state whatever stood before, but for the levels of the bridge
fault inputs, which are pins and keep theirs (the model's reading, log entry 17), the count of free choices and the
commands that still wait (R8). That both encoders' raw counts then stand at 0, not yet read, is the model's choice (log
entry 1). -/
def Obligations.PowerOnResetsAll : Prop :=
  ∀ s : State, ∃ t, exec (.powerOnReset false) s = .next t ∧
    t = { State.reset with
      hz := { Drive.reset with bridgeFault := s.hz.bridgeFault }
      vt := { Drive.reset with bridgeFault := s.vt.bridgeFault }
      choices := s.choices + 1
      pending := s.pending } ∧
    t.clock = 0 ∧ t.setup = none ∧ (∀ i, t.record i = none) ∧ t.engine.state = .stopped ∧ t.held = false ∧
    t.light.emitter = .off ∧ t.attention = false ∧ t.readyOut = false ∧ t.faultOut = false

/-- A HOLD_IN found asserted at power-on is taken as a rising edge at clock 0 (R171): the hold is in force, HOLD_CHANGED
is pending, a break of 48 bit times is begun and the repeat deadline stands at 1,000. -/
def Obligations.PowerOnTakesHoldIn : Prop :=
  ∀ s : State, ∃ t, exec (.powerOnReset true) s = .next t ∧ t.clock = 0 ∧ t.held = true ∧ t.peers.holdIn = true ∧
    t.peers.repeatDeadline = some 1000 ∧ t.link.events.holdChanged = true ∧
    t.line.transmitter = .sendingBreak (48 * finePerBit) ∧ t.engine = Engine.reset ∧
    t.hz.state = .unindexed ∧ t.vt.state = .unindexed ∧ t.table = List.replicate 32 none

/-- An accepted CONFIGURE (R181, R126, R108, R162): the station numbers fixed, the beam code formed, the drives sent to
their index at the seek rate, a PRESENCE offered and its deadline set; tables, engine and observations as they were. -/
def Obligations.ConfigureAccepted : Prop :=
  ∀ (a : ConfigureArgs) (s : State), s.link.slot = none → s.config = none → s.engine.state = .stopped →
    s.lightConsistent → 1 ≤ a.station → a.station ≤ 15 → a.group ≤ 15 → a.listenOnly ≤ 1 → a.hzOffset ≤ 3999999 →
    150000 ≤ a.vtOffset → a.vtOffset ≤ 1850000 →
    ∃ t, exec (.configure (some a)) s = .next t ∧
      t = { s with config := t.config, light := t.light, hz := t.hz, vt := t.vt, line := t.line, peers := t.peers,
                   link := t.link } ∧
      t.config = some ⟨a.station, a.group⟩ ∧
      t.light = { s.light with beam := some ⟨16 + 4 * a.station, 160 - 4 * a.station⟩ } ∧
      DriveConfigured s.held s.clock a.hzOffset s.hz t.hz ∧
      DriveConfigured s.held s.clock a.vtOffset s.vt t.vt ∧
      t.line.listenOnly = (s.line.listenOnly || decide (a.listenOnly = 1)) ∧
      (t.line.listenOnly = true → t.line.queue = s.line.queue) ∧
      (t.line.listenOnly = false → s.line.queue = [] →
        t.line.queue = [.presence (if s.held then .held else .paused) (s.setup.map fun u => ⟨u.es, u.ns, u.hs⟩)]) ∧
      t.peers = { s.peers with presenceDeadline := some (s.clock + 5000) } ∧
      t.link = { s.link with slot := some ⟨1, .ok .none⟩ }

/-- CONFIGURE is refused ALREADY_CONFIGURED once configured, and BAD_VALUE for a value out of range, with nothing changed
(R181). -/
def Obligations.ConfigureRefused : Prop :=
  ∀ (a : ConfigureArgs) (s : State), s.link.slot = none → s.lightConsistent →
    (s.config.isSome = true → exec (.configure (some a)) s =
      .next { s with link := { s.link with slot := some ⟨1, .refused .alreadyConfigured⟩ } }) ∧
    (s.config = none →
      (a.station < 1 ∨ 15 < a.station ∨ 15 < a.group ∨ 1 < a.listenOnly ∨ 3999999 < a.hzOffset ∨ a.vtOffset < 150000 ∨
        1850000 < a.vtOffset) →
      exec (.configure (some a)) s =
        .next { s with link := { s.link with slot := some ⟨1, .refused .badValue⟩ } })

/-- RESET (R182, R125): the tables, the setup, the forced-aim slot, the engine, the light, the queues, the peer table and the
events are cleared; the configuration, the clock, the hold and its sources, the receiver and the schedules are kept; an
axis in service brakes to rest. Where it comes to rest is a free value (log entry 16). That a frame cut short starts the
idle count then, unless the line lay at mark before, is the model's reading (log entry 19). -/
def Obligations.ResetClears : Prop :=
  ∀ s : State, s.link.slot = none → ∃ t, exec (.reset true) s = .next t ∧
    t = { s with
      setup := none, table := List.replicate 32 none, sectors := List.replicate 64 ⟨.opened, 200000, 1800000, 0⟩,
      forced := none, engine := ⟨.stopped, none, none, none, 0, false⟩, hz := t.hz, vt := t.vt,
      light := ⟨s.light.beam, .off, none, none⟩, line := t.line,
      peers := { s.peers with table := List.replicate 8 none },
      link := ⟨some ⟨19, .ok .none⟩, [], EventSet.clear⟩
      choices := s.choices + 1 } ∧
    DriveAfterReset .hz s.clock (s.freeReading .hz) s.hz t.hz ∧
    DriveAfterReset .vt s.clock (s.freeReading .vt) s.vt t.vt ∧
    t.line.receiver = s.line.receiver ∧ t.line.assembler = s.line.assembler ∧ t.line.queue = [] ∧
    t.line.collision = false ∧ t.line.listenOnly = s.line.listenOnly ∧
    (∀ w, s.line.transmitter = .sendingBreak w → t.line.transmitter = .sendingBreak w) ∧
    ((∀ w, s.line.transmitter ≠ .sendingBreak w) → t.line.transmitter = .idle) ∧
    (∀ out, s.line.transmitter = .sending out → t.line.idleFrom = s.line.idleFrom.map (min · s.instant)) ∧
    ((∀ out, s.line.transmitter ≠ .sending out) → t.line.idleFrom = s.line.idleFrom) ∧ t.held = s.held

/-! ### Station, targets and sectors -/

/-- SET_STATION (R6, R7): refused ENGINE_RUNNING unless STOPPED, BAD_VALUE for a value out of range; accepted, it writes
the setup and clears every record's fixes and velocity. -/
def Obligations.SetStationWritesSetup : Prop :=
  ∀ (a : StationArgs) (s : State), s.LinkReady → s.lightConsistent →
    (s.engine.state ≠ .stopped → exec (.setStation (some a)) s =
      .next { s with link := { s.link with slot := some ⟨2, .refused .engineRunning⟩ } }) ∧
    (s.engine.state = .stopped →
      ((a.es < -10000000 ∨ 10000000 < a.es) ∨ (a.ns < -10000000 ∨ 10000000 < a.ns) ∨
        (a.hs < -10000000 ∨ 10000000 < a.hs) ∨ 3000 < a.hi ∨ 3999999 < a.o) →
      exec (.setStation (some a)) s =
        .next { s with link := { s.link with slot := some ⟨2, .refused .badValue⟩ } }) ∧
    (s.engine.state = .stopped → -10000000 ≤ a.es → a.es ≤ 10000000 → -10000000 ≤ a.ns → a.ns ≤ 10000000 →
      -10000000 ≤ a.hs → a.hs ≤ 10000000 → a.hi ≤ 3000 → a.o ≤ 3999999 →
      exec (.setStation (some a)) s =
        .next { s with
          setup := some ⟨a.es, a.ns, a.hs, a.hi, a.o⟩
          table := s.table.map (Option.map fun r => { r with fixA := none, fixB := none, velocity := none })
          link := { s.link with slot := some ⟨2, .ok .none⟩ } })

/-- An accepted LOAD_TARGET (R22, R23): the lowest FREE slot takes the record, due now, IDLE; then a selection (R57).
The marks dueArmed and deferArmed are the model's own (log entry 4). -/
def Obligations.LoadTargetFillsLowestSlot : Prop :=
  ∀ (a : LoadArgs) (cls : PrismClass) (i : Nat) (s : State), s.LinkReady →
    1 ≤ a.prism → a.prism ≤ 250 → classOfCode a.cls = some cls → (cls = PrismClass.machine → a.blink ≤ 63) →
    (∀ g, a.nominal = some g → gridInRange g = true) →
    (∀ r : TargetRecord, some r ∈ s.table → r.prism ≠ a.prism) →
    (cls = PrismClass.machine → ∀ r : TargetRecord, some r ∈ s.table → r.cls = PrismClass.machine → r.blink ≠ some a.blink) →
    s.table[i]? = some none → (∀ j, j < i → s.table[j]? ≠ some none) →
    exec (.loadTarget (some a)) s = .next (({ s with table := s.table.set i (some
      { prism := a.prism, cls := cls, blink := if cls = PrismClass.machine then some a.blink else none, loadTime := s.clock,
        nominal := a.nominal, fixA := none, fixB := none, velocity := none,
        interval := heldInterval cls a.interval,
        dwell := if cls = PrismClass.machine then some (min a.dwell 5000) else none, due := s.clock, misses := 0, lost := false,
        state := .idle, deferUntil := none, lastOutcome := none, dueArmed := true, deferArmed := false }) }.select).respond
      3 (.ok (.loaded i)))

/-- The refusals of LOAD_TARGET, in their order (R22): BAD_VALUE for a prism id outside 1..250, a class code other than 1, 2
and 3, a MACHINE's blink code above 63 or a nominal coordinate outside the grid range of ±10,000,000; then DUPLICATE,
DUPLICATE_CODE, TABLE_FULL. A refused one changes nothing. -/
def Obligations.LoadTargetRefusals : Prop :=
  ∀ (a : LoadArgs) (s : State), s.LinkReady →
    (a.prism < 1 ∨ 250 < a.prism ∨ a.cls < 1 ∨ 3 < a.cls ∨ a.cls = 1 ∧ 63 < a.blink ∨
      (∃ g, a.nominal = some g ∧ (g.e < -10000000 ∨ 10000000 < g.e ∨ g.n < -10000000 ∨ 10000000 < g.n ∨
        g.h < -10000000 ∨ 10000000 < g.h)) →
      exec (.loadTarget (some a)) s =
        .next { s with link := { s.link with slot := some ⟨3, .refused .badValue⟩ } }) ∧
    (∀ cls : PrismClass, 1 ≤ a.prism → a.prism ≤ 250 →
      (a.cls = 1 ∧ cls = .machine ∧ a.blink ≤ 63 ∨ a.cls = 2 ∧ cls = .monitor ∨ a.cls = 3 ∧ cls = .control) →
      (∀ g, a.nominal = some g → (-10000000 ≤ g.e ∧ g.e ≤ 10000000) ∧ (-10000000 ≤ g.n ∧ g.n ≤ 10000000) ∧
        -10000000 ≤ g.h ∧ g.h ≤ 10000000) →
      (∀ r : TargetRecord, some r ∈ s.table → r.prism = a.prism → exec (.loadTarget (some a)) s =
        .next { s with link := { s.link with slot := some ⟨3, .refused .duplicate⟩ } }) ∧
      ((∀ q : TargetRecord, some q ∈ s.table → q.prism ≠ a.prism) →
        (∀ r : TargetRecord, cls = PrismClass.machine → some r ∈ s.table → r.cls = PrismClass.machine →
          r.blink = some a.blink → exec (.loadTarget (some a)) s =
            .next { s with link := { s.link with slot := some ⟨3, .refused .duplicateCode⟩ } }) ∧
        ((cls = PrismClass.machine → ∀ q : TargetRecord, some q ∈ s.table → q.cls = PrismClass.machine →
          q.blink ≠ some a.blink) → none ∉ s.table → exec (.loadTarget (some a)) s =
            .next { s with link := { s.link with slot := some ⟨3, .refused .tableFull⟩ } })))

/-- EDIT_TARGET (R25): refused BAD_VALUE for a prism id outside 1..250 or a nominal coordinate outside the grid range of
±10,000,000, then UNKNOWN_PRISM for a prism that no record carries, with nothing changed; accepted, the record's interval,
dwell and nominal position are rewritten and nothing else of it; then a selection (R57). -/
def Obligations.EditTargetRewrites : Prop :=
  ∀ (a : EditArgs) (s : State), s.LinkReady →
    (a.prism < 1 ∨ 250 < a.prism ∨
      (∃ g, a.nominal = some g ∧ (g.e < -10000000 ∨ 10000000 < g.e ∨ g.n < -10000000 ∨ 10000000 < g.n ∨
        g.h < -10000000 ∨ 10000000 < g.h)) →
      exec (.editTarget (some a)) s =
        .next { s with link := { s.link with slot := some ⟨4, .refused .badValue⟩ } }) ∧
    (1 ≤ a.prism → a.prism ≤ 250 →
      (∀ g, a.nominal = some g → (-10000000 ≤ g.e ∧ g.e ≤ 10000000) ∧ (-10000000 ≤ g.n ∧ g.n ≤ 10000000) ∧
        -10000000 ≤ g.h ∧ g.h ≤ 10000000) →
      ((∀ r : TargetRecord, some r ∈ s.table → r.prism ≠ a.prism) → exec (.editTarget (some a)) s =
        .next { s with link := { s.link with slot := some ⟨4, .refused .unknownPrism⟩ } }) ∧
      ∀ (i : Nat) (r : TargetRecord), s.Carries i r a.prism →
        exec (.editTarget (some a)) s = .next (({ s with table := s.table.set i (some
          { r with
            interval := heldInterval r.cls a.interval
            dwell := if r.cls = PrismClass.machine then some (min a.dwell 5000) else r.dwell
            nominal := a.nominal }) }.select).respond 4 (.ok .none)))

/-- RETIRE_TARGET (R27): refused BAD_VALUE for a prism id outside 1..250, then UNKNOWN_PRISM for a prism that no record
carries, with nothing changed; of a record that is not ACTIVE it makes the slot FREE and changes nothing else. -/
def Obligations.RetireFreesSlot : Prop :=
  ∀ (p : Nat) (s : State), s.LinkReady → s.lightConsistent →
    (p < 1 ∨ 250 < p → exec (.retireTarget (some p)) s =
      .next { s with link := { s.link with slot := some ⟨5, .refused .badValue⟩ } }) ∧
    (1 ≤ p → p ≤ 250 →
      ((∀ r : TargetRecord, some r ∈ s.table → r.prism ≠ p) → exec (.retireTarget (some p)) s =
        .next { s with link := { s.link with slot := some ⟨5, .refused .unknownPrism⟩ } }) ∧
      ∀ (i : Nat) (r : TargetRecord), s.Carries i r p → r.state ≠ .active → exec (.retireTarget (some p)) s =
        .next { s with table := s.table.set i none, link := { s.link with slot := some ⟨5, .ok .none⟩ } })

/-- RETIRE_TARGET of the ACTIVE record (R28, R99): the record is freed and the aim dropped with no outcome and no
block-count change; the engine is WAITING, which makes a selection. SUSPENDED under a hold, nothing else changes, and no
selection is made. In a running aim the open observation closes ANGLE_ONLY with its grid position and without an own fix,
and each axis in MOVING or FINE stops where it stands. That the position is the one last read is the model's choice (log
entry 28), and the mark reporting its own (log entry 8). -/
def Obligations.RetireDropsSuspendedAim : Prop :=
  ∀ (p i : Nat) (r : TargetRecord) (s : State), s.LinkReady → 1 ≤ p → p ≤ 250 → s.Carries i r p → r.state = .active →
    (s.lightConsistent → s.EngineConsistent → s.engine.state = .suspended → s.held = true →
      exec (.retireTarget (some p)) s =
        .next { s with
          table := s.table.set i none
          engine := ⟨.waiting, none, none, none, s.engine.sequence, false⟩
          link := { s.link with slot := some ⟨5, .ok .none⟩ } }) ∧
    (s.engine.state.isRunningAim = true → ∃ u : State, exec (.retireTarget (some p)) s =
        .next (u.select.respond 5 (.ok .none)).followLight ∧
      u = { s with
        table := s.table.set i none
        engine := ⟨.waiting, none, none, none, s.engine.sequence, false⟩
        hz := u.hz
        vt := u.vt
        light := { s.light with window := none, emitter := .off }
        link := u.link } ∧
      DriveStopped .hz s.hz u.hz ∧ DriveStopped .vt s.vt u.vt ∧
      (s.engine.openObs = none → u.link = s.link) ∧
      ∀ o, s.engine.openObs = some o → u.link = (s.giveObservation ⟨o.seq, o.kind, o.prism, o.lockTime, o.hz, o.v,
        .angleOnly, none, observationGrid s.setup o.hz o.v o.heldSd, o.identified⟩).link)

/-- SET_SECTOR (R49, R50): out of its ranges it is refused BAD_VALUE with nothing changed; else every sector of the range
takes the mode and the limits, held within 200,000..1,800,000, its block count kept; the others stand; then a selection
(R57), and the emitter follows (R129). -/
def Obligations.SetSectorWritesRange : Prop :=
  ∀ (a : SectorArgs) (s : State), s.LinkReady → s.lightConsistent →
    (63 < a.first ∨ 63 < a.last ∨ modeOfCode a.mode = none ∨
      max 200000 (min 1800000 a.vmax) ≤ max 200000 (min 1800000 a.vmin) →
      exec (.setSector (some a)) s =
        .next { s with link := { s.link with slot := some ⟨7, .refused .badValue⟩ } }) ∧
    (∀ mode, a.first ≤ 63 → a.last ≤ 63 → modeOfCode a.mode = some mode →
      max 200000 (min 1800000 a.vmin) < max 200000 (min 1800000 a.vmax) → s.sectors.length = 64 →
      ∃ S : List Sector, S.length = 64 ∧
        (∀ (i : Nat) (e : Sector), s.sectors[i]? = some e →
          S[i]? = some (if (i + 64 - a.first) % 64 ≤ (a.last + 64 - a.first) % 64 then
            ⟨mode, max 200000 (min 1800000 a.vmin), max 200000 (min 1800000 a.vmax), e.block⟩ else e)) ∧
        exec (.setSector (some a)) s = .next (({ s with sectors := S }.select.respond 7 (.ok .none)).followLight))

/-! ### Selection and the engine's commands -/

/-- The score of a due candidate (R65), and the order of candidates (R67): the greater score, then the class, then the
shorter slew, then the lower prism id. -/
def Obligations.CandidateOrder : Prop :=
  ∀ (now : Nat) (axes : Angles) (c d : Candidate),
    (c.record.due ≤ now →
      c.score now axes =
        (if c.record.cls = .machine then 16 else if c.record.cls = .control then 4 else 2) *
            min ((now : Int) - c.record.due) 60000 - 8 * c.slew axes - 2000 * c.block) ∧
      (c.before now axes d = true ↔
        d.score now axes < c.score now axes ∨
          c.score now axes = d.score now axes ∧
            (c.record.cls.place < d.record.cls.place ∨
              c.record.cls = d.record.cls ∧
                (c.slew axes < d.slew axes ∨ c.slew axes = d.slew axes ∧ c.record.prism < d.record.prism)))

/-- A selection (R57, R59 to R64, R67 to R69, R76): none while the engine is not WAITING or the site hold is in force. The
filter of R61. In the ordinary pass with no candidate the engine stays WAITING; otherwise a candidate that none comes
before is handed over, its direction in an OPEN sector and within its band; every other record is returned from DEFERRED,
marked UNREACHABLE or left. In the forced step a name that no record carries, or whose record fails the filter, is dropped
with FORCED_DROPPED and the ordinary pass made; a deferred one is kept; one that passes is handed over, due or not, and no
other record is looked at. That the slew estimates of the order and the moves of the hand-over take the axis positions last
read is the model's choice (log entry 28); that a move within 50 cu has its report as a step of its own, the model's
reading (log entry 8); and the marks dueArmed and deferArmed are the model's own (log entry 4). -/
def Obligations.SelectionHandsOverFirst : Prop :=
  ∀ s : State,
    (s.engine.state ≠ .waiting ∨ s.held = true → s.select = s) ∧
    (∀ r : TargetRecord, (r.prediction s.clock = none → s.filter r = .fails .noPrediction) ∧
      ∀ p, r.prediction s.clock = some p →
        (directionTo s.setup p = .tooClose → s.filter r = .fails .tooClose) ∧
        (directionTo s.setup p = .tooFar → s.filter r = .fails .tooFar) ∧
        (directionTo s.setup p = .outOfLimits → s.filter r = .fails .outOfLimits) ∧
        ∀ d, directionTo s.setup p = .given d →
          (s.FilterPassed r d → s.filter r = .passes d) ∧ (¬ s.FilterPassed r d → s.filter r = .fails .masked)) ∧
    (s.engine.state = .waiting → s.held = false →
      (s.forced = none →
        ((∀ c, ¬ s.IsCandidate c) → s.select = { s with table := s.select.table } ∧
          (∀ (i : Nat) (r : TargetRecord), s.table[i]? = some (some r) →
            ∃ p, s.select.table[i]? = some (some p) ∧ s.LeftAs r p) ∧
          ∀ i : Nat, s.table[i]? = some none → s.select.table[i]? = some none) ∧
        ((∃ c, s.IsCandidate c) → ∃ c, s.IsCandidate c ∧ (∀ d, s.IsCandidate d → d.before s.clock s.axes c = false) ∧
          State.HandedOver c.slot c.record c.direction s s.select ∧ s.select.forced = none ∧
          (∀ (i : Nat) (r : TargetRecord), i ≠ c.slot → s.table[i]? = some (some r) →
            ∃ p, s.select.table[i]? = some (some p) ∧ s.LeftAs r p) ∧
          ∀ i : Nat, s.table[i]? = some none → s.select.table[i]? = some none)) ∧
      ∀ (p : Nat) (dropped : CommandLink), s.forced = some p →
        dropped = { s.link with events := { s.link.events with forcedDropped := true } } →
        ((∀ r : TargetRecord, some r ∈ s.table → r.prism ≠ p) →
          s.select = ({ s with forced := none, link := dropped } : State).select) ∧
        ∀ (i : Nat) (r : TargetRecord), s.Carries i r p →
          (r.state = .deferred → (∃ t, r.deferUntil = some t ∧ s.clock < t) →
            s.select = { ({ s with forced := none } : State).select with forced := some p }) ∧
          ∀ q : TargetRecord, r.seenAs s.clock q →
            (∀ why, s.filter q = .fails why → s.select =
              ({ s with forced := none, link := dropped, table := s.table.set i (some q) } : State).select) ∧
            ∀ d, s.filter q = .passes d →
              State.HandedOver i q d s s.select ∧ s.select.forced = none ∧
                ∀ j : Nat, j ≠ i → s.select.table[j]? = s.table[j]?)

/-- RUN (R75): in STOPPED it needs the configuration, the setup and both axes READY, and then enters WAITING, which makes
a selection; refused NOT_READY otherwise. In a running state it is answered OK and changes nothing. -/
def Obligations.RunEntersWaiting : Prop :=
  ∀ s : State, s.LinkReady →
    (s.engine.state = .stopped → s.setup = none ∨ s.hz.state ≠ .ready ∨ s.vt.state ≠ .ready →
      exec (.run true) s = .next { s with link := { s.link with slot := some ⟨9, .refused .notReady⟩ } }) ∧
    (s.engine.state = .stopped → s.setup.isSome = true → s.hz.state = .ready → s.vt.state = .ready →
      s.light.window = none → s.light.emitter = .off →
      exec (.run true) s = .next (({ s with engine := { s.engine with state := .waiting, dwelling := false } }.select).respond
        9 (.ok .none))) ∧
    (s.engine.state ≠ .stopped →
      exec (.run true) s = .next { s with link := { s.link with slot := some ⟨9, .ok .none⟩ } })

/-- PAUSE outside an aim (R97): nothing in STOPPED; from WAITING to STOPPED. -/
def Obligations.PauseStopsWaiting : Prop :=
  ∀ s : State, s.LinkReady → s.lightConsistent → s.light.window = none →
    (s.engine.state = .stopped →
      exec (.pause true) s = .next { s with link := { s.link with slot := some ⟨10, .ok .none⟩ } }) ∧
    (s.engine.state = .waiting →
      exec (.pause true) s = .next { s with
        engine := { s.engine with state := .stopped, dwelling := false }
        link := { s.link with slot := some ⟨10, .ok .none⟩ } })

/-- PAUSE in an aim (R97, R40): answered OK, the aim ends ABORTED and the engine is STOPPED with no window and no light. In
a running aim the open observation closes ANGLE_ONLY, joins the queue and its own fix is offered, and an axis in motion
stops where it stands. In SUSPENDED there is none open and the axes get no request. The record keeps its due time, misses
and lost flag, and is DEFERRED when a defer recorded meanwhile still runs, and else IDLE; no block count changes. That the
position is the one last read is the model's choice (log entry 28); the marks deferArmed and reporting are the model's own
(log entries 4 and 8). -/
def Obligations.PauseAbortsAim : Prop :=
  ∀ (s : State) (a : Aim) (r : TargetRecord), s.LinkReady → s.engine.aim = some a → s.table[a.slot]? = some (some r) →
    (s.engine.state.isRunningAim = true → ∃ (t u : State) (p q : TargetRecord), exec (.pause true) s = .next t ∧
      s.OpenClosed u ∧ u.table[a.slot]? = some (some p) ∧
      p = { r with fixA := p.fixA, fixB := p.fixB, velocity := p.velocity } ∧ p.EndedAs s.clock .aborted q ∧
      DriveStopped .hz s.hz t.hz ∧ DriveStopped .vt s.vt t.vt ∧
      t = { u with
        table := u.table.set a.slot (some q)
        engine := ⟨.stopped, none, none, none, s.engine.sequence, false⟩
        hz := t.hz
        vt := t.vt
        light := { s.light with window := none, emitter := .off }
        link := { u.link with slot := some ⟨10, .ok .none⟩ } }) ∧
    (s.EngineConsistent → s.engine.state = .suspended → ∃ q : TargetRecord, r.EndedAs s.clock .aborted q ∧
      exec (.pause true) s = .next { s with
        table := s.table.set a.slot (some q)
        engine := ⟨.stopped, none, none, none, s.engine.sequence, false⟩
        light := { s.light with window := none, emitter := .off }
        link := { s.link with slot := some ⟨10, .ok .none⟩ } })

/-- AIM_NOW (R71, R72): its refusals in their order, with nothing changed; accepted, the prism takes the forced-aim slot,
the answer carries the direction, and a selection follows. -/
def Obligations.AimNowForces : Prop :=
  ∀ (p : Nat) (s : State), s.LinkReady →
    (p < 1 ∨ 250 < p → exec (.aimNow (some p)) s =
      .next { s with link := { s.link with slot := some ⟨11, .aimRefused none⟩ } }) ∧
    (1 ≤ p → p ≤ 250 → (∀ r : TargetRecord, some r ∈ s.table → r.prism ≠ p) → exec (.aimNow (some p)) s =
      .next { s with link := { s.link with slot := some ⟨11, .refused .unknownPrism⟩ } }) ∧
    (∀ (i : Nat) (r : TargetRecord), 1 ≤ p → p ≤ 250 → s.table[i]? = some (some r) → r.prism = p →
      (∀ (j : Nat) (q : TargetRecord), j < i → s.table[j]? = some (some q) → q.prism ≠ p) →
      (s.setup = none → exec (.aimNow (some p)) s =
        .next { s with link := { s.link with slot := some ⟨11, .refused .notReady⟩ } }) ∧
      (∀ why, s.setup.isSome = true → s.filter r = .fails why → exec (.aimNow (some p)) s =
        .next { s with link := { s.link with slot := some ⟨11, .aimRefused (some why)⟩ } }) ∧
      (∀ d, s.setup.isSome = true → s.filter r = .passes d → exec (.aimNow (some p)) s =
        .next ({ s with forced := some p }.select.respond 11 (.ok (.direction d.hz d.v d.sd)))))

/-- RANGE that closes nothing (R94): BAD_VALUE for a distance out of range, TOO_LATE for a number that is not the open
observation's; nothing else changes. -/
def Obligations.RangeRefused : Prop :=
  ∀ (a : RangeArgs) (s : State), s.LinkReady → s.lightConsistent →
    (a.distance < 2000 ∨ 1500000 < a.distance → exec (.range (some a)) s =
      .next { s with link := { s.link with slot := some ⟨12, .refused .badValue⟩ } }) ∧
    (2000 ≤ a.distance → a.distance ≤ 1500000 → (∀ o, s.engine.openObs = some o → o.seq ≠ a.seq) →
      exec (.range (some a)) s =
        .next { s with link := { s.link with slot := some ⟨12, .refused .tooLate⟩ } })

/-- RANGE that matches (R94, R93, R31 to R33, R35): the observation closes RANGED with the distance carried and joins the
queue, its own fix is offered, and the aim's ranged mark is set. In TRACKING the aim goes on with none open. In RANGING the
aim ends OBSERVED: the record is due its interval after the last lock, its misses 0 and its lost flag clear, IDLE, or
DEFERRED while a defer runs; the block count of the aim's sector falls by 4; the engine is WAITING, which makes a selection.
The marks dueArmed and deferArmed are the model's own (log entry 4). -/
def Obligations.RangeClosesObservation : Prop :=
  (∀ (a : RangeArgs) (o : OpenObs) (m : Aim) (s : State), s.LinkReady → 2000 ≤ a.distance → a.distance ≤ 1500000 →
    s.engine.openObs = some o → o.seq = a.seq → s.engine.aim = some m →
    ∃ u : State, State.ObservationClosed (some a.distance) o s u ∧ u.engine.aim = some { m with ranged := true } ∧
      (s.engine.state ≠ .ranging → exec (.range (some a)) s = .next (u.respond 12 (.ok .none)).followLight ∧
        u.engine.state = s.engine.state) ∧
      ∀ r0, s.engine.state = .ranging → s.table[m.slot]? = some (some r0) →
        ∃ (v : State) (r q : TargetRecord),
          exec (.range (some a)) s = .next (v.select.respond 12 (.ok .none)).followLight ∧
          u.table[m.slot]? = some (some r) ∧ r = { r0 with fixA := r.fixA, fixB := r.fixB, velocity := r.velocity } ∧
          v = { u with
            table := u.table.set m.slot (some q)
            sectors := v.sectors
            engine := { s.engine with
              state := .waiting, aim := none, suspension := none, openObs := none, dwelling := false }
            light := { s.light with window := none, emitter := .off } } ∧
          q = { r with
            lastOutcome := some .observed
            due := m.lastLock.getD s.clock + r.interval
            dueArmed := true
            misses := 0
            lost := false
            state := q.state
            deferUntil := q.deferUntil
            deferArmed := q.deferArmed } ∧
          ((∃ d, r.deferUntil = some d ∧ s.clock < d) → q.state = .deferred ∧ q.deferUntil = r.deferUntil) ∧
          ((∀ d, r.deferUntil = some d → d ≤ s.clock) → q.state = .idle ∧ q.deferUntil = none) ∧
          ∀ k, k < s.sectors.length → v.sector k = { s.sector k with
            block := if m.sector = some k then (s.sector k).block - 4 else (s.sector k).block }) ∧
    ∀ (cls : PrismClass) (x y : Fix), velocityOf cls (some x) none = none ∧
      velocityOf cls (some x) (some y) =
        if cls = .machine ∧ 8 ≤ x.quality ∧ 8 ≤ y.quality ∧ 100 ≤ x.time - y.time ∧ x.time - y.time ≤ 5000 then
          some ⟨max (-8000) (min 8000 (((x.pos.e - y.pos.e) * 1000).tdiv (x.time - y.time : Nat))),
            max (-8000) (min 8000 (((x.pos.n - y.pos.n) * 1000).tdiv (x.time - y.time : Nat))),
            max (-8000) (min 8000 (((x.pos.h - y.pos.h) * 1000).tdiv (x.time - y.time : Nat)))⟩
        else none

/-- The ending of an aim with an outcome other than RETIRED (R37 to R41, R52, R95): the open observation closed ANGLE_ONLY
and its own fix offered; then last outcome, due time, misses and lost flag by the outcome, the later of the defer times
for YIELDED, IDLE or DEFERRED by the defer-until; TARGET_LOST at the fourth miss; the block count of the aim's sector; no
aim and no suspend record, and nothing else changed. The marks dueArmed and deferArmed are the model's own (log entry 4). -/
def Obligations.AimEndWritesRecord : Prop :=
  ∀ (o : AimOutcome) (defer : Option Nat) (s : State) (a : Aim) (r : TargetRecord), o ≠ .retired →
    (o = .yielded ↔ defer.isSome = true) → s.engine.aim = some a → s.table[a.slot]? = some (some r) →
    ∃ (u : State) (p q : TargetRecord), s.OpenClosed u ∧ u.table[a.slot]? = some (some p) ∧
      p = { r with fixA := p.fixA, fixB := p.fixB, velocity := p.velocity } ∧
      (s.finishAim o defer) = { u with
        table := u.table.set a.slot (some q)
        sectors := (s.finishAim o defer).sectors
        engine := { s.engine with openObs := none, aim := none, suspension := none }
        link := { u.link with events := { u.link.events with
          targetLost := u.link.events.targetLost || (decide (o = .missed) && decide (3 ≤ r.misses)) } } } ∧
      q = { p with
        lastOutcome := some o, due := q.due, dueArmed := q.dueArmed, misses := q.misses, lost := q.lost
        state := q.state, deferUntil := q.deferUntil, deferArmed := q.deferArmed } ∧
      (∀ d : Option Nat, d = (match defer with | some t => some (max (r.deferUntil.getD 0) t) | none => r.deferUntil) →
        ((∃ t, d = some t ∧ s.clock < t) → q.state = .deferred ∧ q.deferUntil = d) ∧
          ((∀ t, d = some t → t ≤ s.clock) → q.state = .idle ∧ q.deferUntil = none)) ∧
      (o = .observed → a.ranged = true →
        q.due = a.lastLock.getD s.clock + r.interval ∧ q.misses = 0 ∧ q.lost = false) ∧
      (o = .observed → a.ranged = false →
        q.due = a.lastLock.getD s.clock + min r.interval 60000 ∧ q.misses = r.misses ∧ q.lost = r.lost) ∧
      (o = .missed → r.misses < 3 → q.misses = r.misses + 1 ∧ q.lost = r.lost ∧
        q.due = s.clock + (if r.cls = PrismClass.machine then 1000 else 5000)) ∧
      (o = .missed → 3 ≤ r.misses → q.misses = 4 ∧ q.lost = true ∧
        q.due = s.clock + (if r.cls = PrismClass.machine then 30000 else 600000)) ∧
      (o = .trackLost → q.due = s.clock ∧ q.misses = r.misses ∧ q.lost = r.lost) ∧
      (∀ why, o = .unreachable why → q.due = s.clock + 10000 ∧ q.misses = r.misses ∧ q.lost = r.lost) ∧
      (o = .yielded ∨ o = .aborted ∨ o = .abandoned ∨ o = .faulted →
        q.due = r.due ∧ q.misses = r.misses ∧ q.lost = r.lost) ∧
      ∀ k, k < s.sectors.length → (s.finishAim o defer).sector k = { s.sector k with
        block := if a.sector = some k ∧ o = .missed then min ((s.sector k).block + 1) 15
          else if a.sector = some k ∧ o = .observed then (s.sector k).block - 4
          else (s.sector k).block }

/-- SITE_HOLD (R172): one break request, answered OK; the hold itself does not change at the command. -/
def Obligations.SiteHoldRequestsBreak : Prop :=
  ∀ s : State, s.LinkReady → ∃ t, exec (.siteHold true) s = .next t ∧
    t = { s with line := t.line, link := { s.link with slot := some ⟨18, .ok .none⟩ } } ∧
    t.line = { s.line with transmitter := t.line.transmitter, idleFrom := t.line.idleFrom } ∧ t.held = s.held ∧
    (∀ w, s.line.transmitter = .sendingBreak w → t.line = s.line) ∧
    ((∀ w, s.line.transmitter ≠ .sendingBreak w) →
      t.line.transmitter = .sendingBreak (s.instant + 48 * finePerBit) ∧ t.line.idleFrom = none)

/-- CLEAR_FAULT (R122, R183): BAD_VALUE for an axis code that names no axis; with no axis in FAULT it changes nothing; with
the engine STOPPED, as a fault leaves it, each named drive leaves FAULT by the table of R122, taking OVERCURRENT again when
its bridge fault input is still asserted. The answer gives both drives as they then stand. That the position is the one last
read is the model's choice (log entry 28). -/
def Obligations.ClearFaultRestoresDrives : Prop :=
  ∀ (x : Nat) (s : State), s.LinkReady → s.lightConsistent →
    (x = 0 ∨ 3 < x → exec (.clearFault (some x)) s =
      .next { s with link := { s.link with slot := some ⟨17, .refused .badValue⟩ } }) ∧
    (1 ≤ x → x ≤ 3 → s.hz.state ≠ .fault → s.vt.state ≠ .fault → exec (.clearFault (some x)) s =
      .next { s with link := { s.link with slot := some ⟨17, .ok (.drives s.hz.state s.hz.fault s.vt.state s.vt.fault)⟩ } }) ∧
    (1 ≤ x → x ≤ 3 → s.engine.state = .stopped → ∃ t, exec (.clearFault (some x)) s = .next t ∧
      t = { s with hz := t.hz, vt := t.vt, link := t.link } ∧
      (x ≠ 2 → DriveCleared .hz s.held s.clock s.hz t.hz) ∧ (x = 2 → t.hz = s.hz) ∧
      (x ≠ 1 → DriveCleared .vt s.held s.clock s.vt t.vt) ∧ (x = 1 → t.vt = s.vt) ∧
      t.link = { s.link with
        slot := some ⟨17, .ok (.drives t.hz.state t.hz.fault t.vt.state t.vt.fault)⟩
        events := { s.link.events with axisFault := s.link.events.axisFault ||
          (decide (x ≠ 2) && decide (s.hz.state = .fault) && s.hz.bridgeFault) ||
          (decide (x ≠ 1) && decide (s.vt.state = .fault) && s.vt.bridgeFault) } })

/-! ### The timers of the tables -/

/-- The due time, or the defer-until, of a record that comes is used up and makes a selection (R57, R44); an expiry that
finds none to come does nothing (log entries 4 and 11). -/
def Obligations.RecordTimersSelect : Prop :=
  ∀ (i : Nat) (s : State),
    (∀ r : TargetRecord, s.table[i]? = some (some r) →
      (r.dueArmed = true → r.due ≤ s.clock → exec (.dueTimeExpiry i) s =
        .next ({ s with table := s.table.set i (some { r with dueArmed := false }) }.select)) ∧
      (r.dueArmed = false ∨ s.clock < r.due → exec (.dueTimeExpiry i) s = .next s) ∧
      (∀ d, r.deferArmed = true → r.deferUntil = some d → d ≤ s.clock → exec (.deferUntilExpiry i) s =
        .next ({ s with table := s.table.set i (some { r with deferArmed := false }) }.select)) ∧
      (r.deferArmed = false ∨ (∀ d, r.deferUntil = some d → s.clock < d) → exec (.deferUntilExpiry i) s = .next s)) ∧
    ((∀ r : TargetRecord, s.table[i]? ≠ some (some r)) →
      exec (.dueTimeExpiry i) s = .next s ∧ exec (.deferUntilExpiry i) s = .next s)

/-- The block decay, the expiry of a peer record and of an intent, and the PRESENCE deadline (R54, R161, R162). One whose
instant has not come does nothing (log entry 11). A PRESENCE offered to a line that has been idle for the gap already is
sent by a step of its own (the model's reading, log entry 13). -/
def Obligations.ScheduledTimersRun : Prop :=
  ∀ s : State,
    (s.decayDue ≤ s.clock → exec .blockDecay s = .next { s with
      sectors := s.sectors.map fun e => { e with block := if e.block = 0 then 0 else e.block - 1 }
      decayDue := s.decayDue + 10000 }) ∧
    (s.clock < s.decayDue → exec .blockDecay s = .next s) ∧
    (∀ (i : Nat) (p : Peer), s.peers.table[i]? = some (some p) →
      (p.lastHeard + 15000 ≤ s.clock → exec (.peerRecordExpiry i) s =
        .next { s with peers := { s.peers with table := s.peers.table.set i none } }) ∧
      (s.clock < p.lastHeard + 15000 → exec (.peerRecordExpiry i) s = .next s) ∧
      (∀ u, p.intent = some u → u.expiry ≤ s.clock → exec (.intentExpiry i) s =
        .next { s with peers := { s.peers with table := s.peers.table.set i (some { p with intent := none }) } }) ∧
      ((∀ u, p.intent = some u → s.clock < u.expiry) → exec (.intentExpiry i) s = .next s)) ∧
    (∀ d, s.peers.presenceDeadline = some d → d ≤ s.clock → s.config.isSome = true →
      ∃ t, exec .presenceDeadline s = .next t ∧ t = { s with line := t.line, peers := t.peers } ∧
        t.peers = { s.peers with presenceDeadline := some (s.clock + 5000) } ∧
        (s.line.listenOnly = true → t.line = s.line) ∧
        (s.line.listenOnly = false → t.line = { s.line with
          queue := placeFrame (.presence (if s.held then .held else if s.engine.state = .stopped then .paused else .running)
            (s.setup.map fun u => ⟨u.es, u.ns, u.hs⟩)) s.line.queue
          transmitter := if s.line.transmitter = .idle then .waitingGap else s.line.transmitter })) ∧
    ((∀ d, s.peers.presenceDeadline = some d → s.clock < d) → exec .presenceDeadline s = .next s)

/-! ### The axis drives -/

/-- ARRIVED (R113, R114, R77, R81): of a drive in MOVING within 50 cu of its target, which is then READY with the target
unchanged, or of one that a move request took to READY at once, whose report comes as a step of its own by the mark
reporting (the model's reading, log entry 8). Any other ARRIVED does no more than read (log entry 11). Outside SLEWING and
SEARCHING the engine takes no notice. Awaited, the report counts; the second one in SEARCHING begins the dwell with a new
window; the second one in SLEWING re-slews, at most twice, when the fresh direction lies more than W/2 off, with a move
requested of both axes, and else enters ACQUIRING, where the aim's sector is recorded once. That the other axis then moves
from the position last read is the model's choice (log entry 28). -/
def Obligations.ArrivalAdvancesEngine : Prop :=
  ∀ (ax : Axis) (raw : Int) (s u w : State) (d e : Drive), u = s.readAxis ax raw → d = u.drive ax →
    w = u.setDrive ax e →
    (d.state ≠ .moving ∨ 50 < d.distanceLeft ax → d.reporting = false → exec (.arrived ax raw) s = .next u.followLight) ∧
    (d.state = .moving ∧ d.distanceLeft ax ≤ 50 ∧ e = { d with state := .ready, interval := none, reporting := false } ∨
        (d.state ≠ .moving ∨ 50 < d.distanceLeft ax) ∧ d.reporting = true ∧ e = { d with reporting := false } →
      (s.engine.aim = none ∨ s.engine.state ≠ .slewing ∧ s.engine.state ≠ .searching →
        exec (.arrived ax raw) s = .next w.followLight) ∧
      ∀ a mine other b, s.engine.state = .slewing ∨ s.engine.state = .searching → s.engine.aim = some a →
        (mine, other) = (match ax with | .hz => (a.awaitHz, a.awaitVt) | .vt => (a.awaitVt, a.awaitHz)) →
        b = (match ax with | .hz => { a with awaitHz := false } | .vt => { a with awaitVt := false }) →
        (mine = false → exec (.arrived ax raw) s = .next w.followLight) ∧
        (mine = true → other = true → exec (.arrived ax raw) s = .next (w.withAim b).followLight) ∧
        (mine = true → other = false → s.engine.state = .searching → exec (.arrived ax raw) s = .next { w with
          engine := { s.engine with aim := some b, dwelling := true }
          light := { s.light with window := some ⟨s.instant, [], []⟩ } }.followLight) ∧
        (mine = true → other = false → s.engine.state = .slewing →
          (∀ r g, s.table[a.slot]? = some (some r) → s.sourceDirection a.source r = some g →
            (beyondHalfWidth (r.widthAt s.clock g.sd) g.hz g.v a.centre.hz a.centre.v = true → a.reslews < 2 →
              ∃ t : State, exec (.arrived ax raw) s = .next t.followLight ∧
                t = { w with
                  engine := { s.engine with aim := some { b with
                    centre := ⟨g.hz, g.v⟩, centreSd := g.sd, width := r.widthAt s.clock g.sd
                    rings := ringCount (r.widthAt s.clock g.sd), reslews := a.reslews + 1, awaitHz := true
                    awaitVt := true } }
                  hz := t.hz
                  vt := t.vt } ∧
                DriveMoved .hz s.clock (g.hz % 4000000) w.hz t.hz ∧
                DriveMoved .vt s.clock (max 200000 (min 1800000 g.v)) w.vt t.vt) ∧
            (beyondHalfWidth (r.widthAt s.clock g.sd) g.hz g.v a.centre.hz a.centre.v = false ∨ 2 ≤ a.reslews →
              exec (.arrived ax raw) s = .next { w with
                engine := { s.engine with
                  state := .acquiring
                  dwelling := false
                  aim := some { b with
                    centreSd := g.sd, width := r.widthAt s.clock g.sd, rings := ringCount (r.widthAt s.clock g.sd)
                    inTolerance := 0, nonOwn := 0, mixed := 0, codeSeen := false, ownSince := false, dwellCount := 0
                    sector := match a.sector with
                      | some k => some k
                      | none => s.setup.map fun x => sectorOf (azimuthOf x a.centre.hz) } }
                light := { s.light with window := some ⟨s.instant, [], []⟩ } }.followLight)) ∧
          ((∀ r : TargetRecord, s.table[a.slot]? = some (some r) → s.sourceDirection a.source r = none) →
            exec (.arrived ax raw) s = .next { w with
              engine := { s.engine with
                state := .acquiring
                dwelling := false
                aim := some { b with
                  inTolerance := 0, nonOwn := 0, mixed := 0, codeSeen := false, ownSince := false, dwellCount := 0
                  sector := match a.sector with
                    | some k => some k
                    | none => s.setup.map fun x => sectorOf (azimuthOf x a.centre.hz) } }
              light := { s.light with window := some ⟨s.instant, [], []⟩ } }.followLight)))

/-- FINE_ARRIVAL, VT_SEEK_REVERSAL and HZ_SECTOR_CROSSING (R115, R109, R129): the encoder is read, a drive in FINE within
50 cu of its target is READY with no report to the engine, the VT seek that has travelled 550,000 turns negative with its
capture dropped; and the emitter follows. An event whose condition the reading does not meet does no more than read (log
entry 11). -/
def Obligations.DriveReachesPosition : Prop :=
  ∀ (ax : Axis) (raw : Int) (s u : State), u = s.readAxis ax raw →
    ((u.drive ax).state = .fine → (u.drive ax).distanceLeft ax ≤ 50 → exec (.fineArrival ax raw) s =
      .next (u.setDrive ax { u.drive ax with state := .ready, interval := none, reporting := false }).followLight) ∧
    ((u.drive ax).state ≠ .fine ∨ 50 < (u.drive ax).distanceLeft ax → exec (.fineArrival ax raw) s = .next u.followLight) ∧
    (ax = .vt → u.vt.state = .indexing → u.vt.reversed = false → 550000 ≤ u.vt.travel → exec (.vtSeekReversal raw) s =
      .next ({ u with vt := { u.vt with
        reversed := true, capture := none, interval := some ⟨s.clock, u.vt.travel⟩ } }.followLight)) ∧
    (ax = .vt → u.vt.state ≠ .indexing ∨ u.vt.reversed = true ∨ u.vt.travel < 550000 →
      exec (.vtSeekReversal raw) s = .next u.followLight) ∧
    (ax = .hz → exec (.hzSectorCrossing raw) s = .next u.followLight ∧
      (s.hz.indexed = true → ∀ m o, s.hz.midpoint = some m → s.hz.offset = some o →
        u.hz.position .hz = some ((raw - m + o) % 4000000)))

/-- SETTLE_END (R112, R102) of a settle whose 150 ms have passed: READY with the target unchanged, or the pending target
taken as a move; AXES_READY when both drives are READY for the first time since an index was set; a suspended aim is then
tested for resumption. Before its end, or in another state, the event does no more than read (log entry 11). That the report
of a pending move already within 50 cu comes as a step of its own is the model's reading (log entry 8). -/
def Obligations.SettleEndsReady : Prop :=
  ∀ (ax : Axis) (raw : Int) (s u : State) (d : Drive), u = s.readAxis ax raw → d = u.drive ax →
    ((d.state ≠ .settling ∨ ∀ n, d.settleEnd = some n → s.clock < n) →
      exec (.settleEnd ax raw) s = .next u.followLight) ∧
    (∀ n, d.state = .settling → d.settleEnd = some n → n ≤ s.clock →
      ∃ w : State, exec (.settleEnd ax raw) s = .next w.tryResume.followLight ∧
        (s.engine.state ≠ .suspended → w.tryResume = w) ∧
        w = { s with hz := w.hz, vt := w.vt, axesReadyRaised := w.axesReadyRaised, link := w.link } ∧
        w.drive (otherAxis ax) = s.drive (otherAxis ax) ∧
        (w.drive ax).settleEnd = none ∧ (w.drive ax).pendingTarget = none ∧
        (d.pendingTarget = none → (w.drive ax).state = .ready ∧ (w.drive ax).target = d.target) ∧
        (∀ p, d.pendingTarget = some p → (w.drive ax).target = some p ∧
          (w.drive ax).state = if d.distance ax p ≤ 50 then .ready else .moving) ∧
        ((w.drive ax).state = .ready → (s.drive (otherAxis ax)).state = .ready → s.axesReadyRaised = false →
          w.axesReadyRaised = true ∧ w.link = { s.link with events := { s.link.events with axesReady := true } }) ∧
        ((w.drive ax).state ≠ .ready ∨ (s.drive (otherAxis ax)).state ≠ .ready ∨ s.axesReadyRaised = true →
          w.axesReadyRaised = s.axesReadyRaised ∧ w.link = s.link))

/-- INDEX_EDGE (R110): a rising edge is captured; a falling edge with a capture sets the index at the midpoint, the axis
settling at its position, or in FAULT with LIMIT when VT then stands outside its hard limit; any other edge is ignored.
The raw count at rest is an operand of the event (log entry 16). -/
def Obligations.IndexEdgeSetsIndex : Prop :=
  ∀ (ax : Axis) (raw rest : Int) (s u : State), u = s.readAxis ax raw →
    ((u.drive ax).state = .indexing → exec (.indexEdge ax true raw rest) s =
      .next (u.setDrive ax { u.drive ax with capture := some raw }).followLight) ∧
    ((u.drive ax).state ≠ .indexing → ∀ rising, exec (.indexEdge ax rising raw rest) s = .next u.followLight) ∧
    ((u.drive ax).capture = none → exec (.indexEdge ax false raw rest) s = .next u.followLight) ∧
    (∀ c o, (u.drive ax).state = .indexing → (u.drive ax).capture = some c → (u.drive ax).offset = some o →
      s.engine.state = .stopped → s.light.emitter = .off →
      ∃ t, exec (.indexEdge ax false raw rest) s = .next t ∧ (t.drive ax).indexed = true ∧
        (t.drive ax).midpoint = some ((c + raw) / 2) ∧ (t.drive ax).capture = none ∧ t.axesReadyRaised = false ∧
        t.drive (otherAxis ax) = s.drive (otherAxis ax) ∧
        (t.drive ax).position ax = some (match ax with
          | .hz => (rest - (c + raw) / 2 + o) % 4000000
          | .vt => rest - (c + raw) / 2 + o) ∧
        t = { s with hz := t.hz, vt := t.vt, axesReadyRaised := false, link := t.link } ∧
        (ax = .vt ∧ (rest - (c + raw) / 2 + o < 150000 ∨ 1850000 < rest - (c + raw) / 2 + o) →
          (t.drive ax).state = .fault ∧ (t.drive ax).fault = some .limit ∧
            t.link = { s.link with events := { s.link.events with axisFault := true } }) ∧
        (ax = .hz ∨ (150000 ≤ rest - (c + raw) / 2 + o ∧ rest - (c + raw) / 2 + o ≤ 1850000) →
          (t.drive ax).state = .settling ∧ (t.drive ax).settleEnd = some (s.clock + 150) ∧
            (t.drive ax).target = (t.drive ax).position ax ∧ t.link = s.link))

/-- The faults of the drives (R111, R118, R119, R120, R98): INDEX_MISSING at the end of a seek's travel, STALL when an
interval of 200 ms brings less than 100 cu, OVERCURRENT at the bridge fault input, LIMIT when the VT position leaves its
hard limit; each is taken as R120 and R98 say. Where the condition is not met (an interval cut short among them, and a VT
position still outside its hard limit), the event changes no more than the reading, or the level of the input (log
entry 11); in FAULT a further fault is discarded, and the mark that VT stands outside is set. That the position is the one last read is the model's choice (log entry 28);
that a fault clears the seek's travel and capture its reading (log entry 15), as is the dropping of a report not yet taken
(log entry 8); the mark deferArmed is its own (log entry 4). -/
def Obligations.DriveFaultsStopEngine : Prop :=
  ∀ (ax : Axis) (raw : Int) (s u : State), s.EngineConsistent → u = s.readAxis ax raw →
    ((u.drive ax).state = .indexing → (match ax with | .hz => 4400000 | .vt => 2200000) ≤ (u.drive ax).travel →
      ∃ t, exec (.seekTravelExhausted ax raw) s = .next t ∧ State.FaultTaken ax .indexMissing u t) ∧
    ((u.drive ax).state ≠ .indexing ∨ (u.drive ax).travel < (match ax with | .hz => 4400000 | .vt => 2200000) →
      exec (.seekTravelExhausted ax raw) s = .next u.followLight) ∧
    (∀ iv, (u.drive ax).interval = some iv → (u.drive ax).state = .moving → iv.begun + 200 ≤ s.clock →
      (iv.mark < (u.drive ax).distanceLeft ax + 100 →
        ∃ t, exec (.progressIntervalEnd ax raw) s = .next t ∧ State.FaultTaken ax .stall u t) ∧
      ((u.drive ax).distanceLeft ax + 100 ≤ iv.mark → exec (.progressIntervalEnd ax raw) s =
        .next (u.setDrive ax { u.drive ax with interval := some ⟨s.clock, (u.drive ax).distanceLeft ax⟩ }).followLight)) ∧
    (∀ iv, (u.drive ax).interval = some iv → (u.drive ax).state = .indexing → iv.begun + 200 ≤ s.clock →
      ((u.drive ax).travel < iv.mark + 100 →
        ∃ t, exec (.progressIntervalEnd ax raw) s = .next t ∧ State.FaultTaken ax .stall u t) ∧
      (iv.mark + 100 ≤ (u.drive ax).travel → exec (.progressIntervalEnd ax raw) s =
        .next (u.setDrive ax { u.drive ax with interval := some ⟨s.clock, (u.drive ax).travel⟩ }).followLight)) ∧
    ((u.drive ax).interval = none ∨ (u.drive ax).state ≠ .moving ∧ (u.drive ax).state ≠ .indexing ∨
      (∃ iv, (u.drive ax).interval = some iv ∧ s.clock < iv.begun + 200) →
      exec (.progressIntervalEnd ax raw) s = .next u.followLight) ∧
    ((s.drive ax).state ≠ .fault → ∃ t, exec (.bridgeFaultInput ax true) s = .next t ∧
      State.FaultTaken ax .overcurrent (s.setDrive ax { s.drive ax with bridgeFault := true }) t) ∧
    ((s.drive ax).state = .fault → exec (.bridgeFaultInput ax true) s =
      .next (s.setDrive ax { s.drive ax with bridgeFault := true }).followLight) ∧
    (exec (.bridgeFaultInput ax false) s = .next (s.setDrive ax { s.drive ax with bridgeFault := false }).followLight) ∧
    (ax = .vt → (u.vt.position .vt = none → exec (.vtLimitCrossing raw) s = .next u.followLight) ∧
      ∀ p, u.vt.position .vt = some p →
        (p < 150000 ∨ 1850000 < p →
          (u.vt.outside = false → u.vt.state ≠ .fault → ∃ t, exec (.vtLimitCrossing raw) s = .next t ∧
            State.FaultTaken .vt .limit { u with vt := { u.vt with outside := true } } t) ∧
          (u.vt.outside = false → u.vt.state = .fault → exec (.vtLimitCrossing raw) s =
            .next ({ u with vt := { u.vt with outside := true } }.followLight)) ∧
          (u.vt.outside = true → exec (.vtLimitCrossing raw) s = .next u.followLight)) ∧
        (150000 ≤ p → p ≤ 1850000 → exec (.vtLimitCrossing raw) s = .next u.followLight))

/-! ### Windows -/

/-- A pulse and an identity code are gathered by the window in progress and dropped when there is none (R133, R139). At a
window's end (R131, R138) the report is stored: the latched angles, the counts, the class by R136, offsets within ±2,000
exactly for OWN and MIXED, a code only for OWN, the prism the code names (R140); without both positions the window is
discarded. The next window begins where this one ends, with the evidence that lies after, and the engine takes the report
by its state: it counts, goes on to the next search position or attempt, finds its target or a wrong prism, yields or loses
the track (R81 to R83, R85, R86, R89, R90; the lock is CentringLocksOnOwnLight's). A WINDOW_END before the window has run
its 1,504 µs changes no more than the readings (log entry 11). A pulse is told with its start and its end together (log
entry 6), and the report of a move within 50 cu is a step of its own (log entry 8): the model's choice and reading. -/
def Obligations.WindowEndReports : Prop :=
  ∀ s : State,
    (∀ w p c i, s.light.window = some w →
      exec (.returnPulse p) s = .next { s with light := { s.light with window := some { w with pulses := w.pulses ++ [p] } } } ∧
        exec (.identityCode c i) s =
          .next { s with light := { s.light with window := some { w with codes := w.codes ++ [⟨c, i⟩] } } }) ∧
    (s.light.window = none → ∀ p c i, exec (.returnPulse p) s = .next s ∧ exec (.identityCode c i) s = .next s) ∧
    (∀ (x y : Int) (w : Window) (u : State), u = s.readBoth x y → s.light.window = some w →
      (s.instant < w.start + 108288 → exec (.windowEnd x y) s = .next u.followLight) ∧
      (w.start + 108288 ≤ s.instant → u.hz.position .hz = none ∨ u.vt.position .vt = none →
        ∃ t, exec (.windowEnd x y) s = .next t ∧ t.light.last = s.light.last ∧ t.engine = s.engine ∧ t.table = s.table) ∧
      (∀ h v, w.start + 108288 ≤ s.instant → u.hz.position .hz = some h → u.vt.position .vt = some v →
        ∃ t l, exec (.windowEnd x y) s = .next t ∧ t.light.last = some l ∧ t.clock = s.clock ∧
          l.report.hz = h ∧ l.report.vt = v ∧ l.report.windowEnd = s.clock ∧
          l.report.pulseCount = w.pulses.countP (fun p => decide (0 ≤ p.start) && decide (p.start < 1504)) ∧
          l.report.ownPairs ≤ 8 ∧ l.report.foreignPairs ≤ 8 ∧
          (l.report.pulseCount = 0 → l.report.cls = .empty) ∧
          (0 < l.report.pulseCount → 5 ≤ l.report.ownPairs → l.report.foreignPairs ≤ 1 → l.report.cls = .own) ∧
          (0 < l.report.pulseCount → 5 ≤ l.report.foreignPairs → l.report.ownPairs ≤ 1 → l.report.cls = .foreign) ∧
          (0 < l.report.pulseCount → 2 ≤ l.report.ownPairs → 2 ≤ l.report.foreignPairs → l.report.cls = .mixed) ∧
          (0 < l.report.pulseCount → ¬ (5 ≤ l.report.ownPairs ∧ l.report.foreignPairs ≤ 1) →
            ¬ (5 ≤ l.report.foreignPairs ∧ l.report.ownPairs ≤ 1) →
            ¬ (2 ≤ l.report.ownPairs ∧ 2 ≤ l.report.foreignPairs) → l.report.cls = .weak) ∧
          (l.report.offsets.isSome = true ↔ l.report.cls = .own ∨ l.report.cls = .mixed) ∧
          (∀ dx dy, l.report.offsets = some (dx, dy) → -2000 ≤ dx ∧ dx ≤ 2000 ∧ -2000 ≤ dy ∧ dy ≤ 2000) ∧
          (l.report.code.isSome = true → l.report.cls = .own) ∧ l.named = l.report.code.bind s.prismOfCode ∧
          ∃ v b : State, t = v.followLight ∧ b = { u with light := { s.light with
              last := some l
              window := some ⟨w.start + 108288,
                (w.pulses.filter fun p => decide (1504 ≤ p.start)).map
                  fun p => { p with start := p.start - 1504, stop := p.stop - 1504 },
                (w.codes.filter fun c => decide (1504 ≤ c.done)).map fun c => { c with done := c.done - 1504 }⟩ } } ∧
            (s.engine.aim = none → v = b) ∧
            ∀ (a : Aim) (r : TargetRecord), s.engine.aim = some a → s.table[a.slot]? = some (some r) →
              s.engine.state.makesWindows = true → State.WindowTaken a r l.report b v))

/-- A window taken in CENTRING (R84, R87, R88): OWN light without a wrong code adjusts both axes onto it, and the third in
a row within 20 cu on both axes is the lock: a LOCK observation opens with the next sequence number, at the latched angles
plus the offsets; the engine enters TRACKING when the record is a MACHINE with a dwell, those angles the latest OWN ones
and the OWN-since-sample mark clear, and else RANGING. The drives' mark reporting is the model's own (log entry 8). -/
def Obligations.CentringLocksOnOwnLight : Prop :=
  ∀ (x y h v : Int) (w : Window) (s u : State) (a : Aim) (r : TargetRecord) (m : WindowReport) (dx dy : Int),
    u = s.readBoth x y → s.light.window = some w → w.start + 108288 ≤ s.instant → u.hz.position .hz = some h →
    u.vt.position .vt = some v → m = windowReport s.ownStation w.pulses w.codes h v s.clock → m.cls = .own →
    m.offsets = some (dx, dy) → s.engine.state = .centring → s.engine.aim = some a →
    s.table[a.slot]? = some (some r) →
    (∀ c, m.code = some c → r.cls = PrismClass.machine ∧ r.blink = some c) →
    ∃ t b n, exec (.windowEnd x y) s = .next t ∧ t.engine.aim = some b ∧
      n = (if dx.natAbs ≤ 20 ∧ dy.natAbs ≤ 20 then a.inTolerance + 1 else 0) ∧
      t = { s with engine := t.engine, hz := t.hz, vt := t.vt, light := t.light } ∧
      DriveAdjusted .hz ((h + dx) % 4000000) u.hz t.hz ∧ DriveAdjusted .vt (max 200000 (min 1800000 (v + dy))) u.vt t.vt ∧
      b.codeSeen = (a.codeSeen || m.code.isSome) ∧ b.nonOwn = 0 ∧ b.mixed = 0 ∧
      (n < 3 → t.engine.state = .centring ∧ b.inTolerance = n ∧ t.engine.openObs = s.engine.openObs ∧
        t.engine.sequence = s.engine.sequence) ∧
      (3 ≤ n → b.inTolerance = 0 ∧ b.lastLock = some s.clock ∧ t.engine.sequence = (s.engine.sequence + 1) % 65536 ∧
        t.engine.openObs = some ⟨s.engine.sequence, .lock, a.prism, s.clock, (h + dx) % 4000000,
          max 200000 (min 1800000 (v + dy)), b.codeSeen, s.heldDistance a⟩ ∧
        (∀ d, r.cls = PrismClass.machine → r.dwell = some d → 0 < d → t.engine.state = .tracking ∧
          b.dwellDeadline = some (s.clock + d) ∧ b.nextSample = some (s.clock + 100) ∧
          b.latestOwn = some ⟨(h + dx) % 4000000, max 200000 (min 1800000 (v + dy))⟩ ∧ b.ownSince = false) ∧
        ((r.cls ≠ PrismClass.machine ∨ r.dwell = none ∨ r.dwell = some 0) →
          t.engine.state = .ranging ∧ b.waitDeadline = some (s.clock + 800)))

/-- The aim's timers in the one state in which each counts (R91, R92, R89, R101). A sample closes the open observation
ANGLE_ONLY and opens a TRACK observation at the latest OWN angles when OWN light has come since the last one, and is else
skipped; the end of the dwell goes to RANGING for the open observation, or ends the aim OBSERVED; the end of the wait ends
it OBSERVED, and the abandon deadline ABANDONED. Elsewhere, or ahead of its deadline, an expiry does nothing (log
entry 11). That a wait deadline already passed when the dwell ends expires in a step of its own is the model's reading (log
entry 13). -/
def Obligations.AimTimersEndPhases : Prop :=
  ∀ (s : State) (a : Aim), s.engine.aim = some a → s.lightConsistent → s.light.window.isSome = s.engine.state.makesWindows →
    (∀ n, s.engine.state = .tracking → a.nextSample = some n → n ≤ s.clock →
      (a.ownSince = false → exec .trackSample s =
        .next { s with engine := { s.engine with aim := some { a with nextSample := some (n + 100) } } }) ∧
      (∀ g, a.ownSince = true → a.latestOwn = some g → ∃ u : State, s.OpenClosed u ∧ exec .trackSample s =
        .next { u with engine := { s.engine with
          aim := some { a with nextSample := some (n + 100), ownSince := false }
          openObs := some ⟨s.engine.sequence, .track, a.prism, s.clock, g.hz, g.v, a.codeSeen, u.heldDistance a⟩
          sequence := (s.engine.sequence + 1) % 65536 } } ∧
        (∀ q p d, u.table[a.slot]? = some (some q) → q.prediction s.clock = some p →
          directionTo s.setup p = .given d → u.heldDistance a = d.sd) ∧
        ((∀ q p d, u.table[a.slot]? = some (some q) → q.prediction s.clock = some p →
          directionTo s.setup p ≠ .given d) → u.heldDistance a = a.centreSd))) ∧
    (∀ n, s.engine.state = .tracking → a.dwellDeadline = some n → n ≤ s.clock →
      (∀ o, s.engine.openObs = some o → exec .trackDwellExpiry s = .next { s with engine := { s.engine with
        state := .ranging
        dwelling := false
        aim := some { a with
          nextSample := none, dwellDeadline := none, inTolerance := 0, nonOwn := 0, mixed := 0
          waitDeadline := some (o.lockTime + 800) } } }) ∧
      (s.engine.openObs = none → exec .trackDwellExpiry s = .next (({ s with engine := { s.engine with
        aim := some { a with nextSample := none, dwellDeadline := none } } }.finishAim .observed none).enterWaiting.followLight))) ∧
    (∀ n, s.engine.state = .ranging → a.waitDeadline = some n → n ≤ s.clock →
      exec .rangingWaitExpiry s = .next (s.finishAim .observed none).enterWaiting.followLight) ∧
    (∀ n, s.engine.state = .suspended → a.abandonDeadline = some n → n ≤ s.clock →
      exec .abandonDeadlineExpiry s = .next (s.finishAim .abandoned none).enterWaiting.followLight) ∧
    ((s.engine.state ≠ .tracking ∨ ∀ n, a.nextSample = some n → s.clock < n) → exec .trackSample s = .next s) ∧
    ((s.engine.state ≠ .tracking ∨ ∀ n, a.dwellDeadline = some n → s.clock < n) → exec .trackDwellExpiry s = .next s) ∧
    ((s.engine.state ≠ .ranging ∨ ∀ n, a.waitDeadline = some n → s.clock < n) → exec .rangingWaitExpiry s = .next s) ∧
    ((s.engine.state ≠ .suspended ∨ ∀ n, a.abandonDeadline = some n → s.clock < n) →
      exec .abandonDeadlineExpiry s = .next s)

/-- A suspended aim at the tests for resumption (R102, R103): with its record and a prediction that passes the filter it
resumes, in SEARCHING at the saved index, not dwelling, else in SLEWING about the fresh direction, with a move requested of
both axes in either; a failing geometric test ends it UNREACHABLE, a missing prediction ABANDONED. Index 0 after a slew is
the model's reading of R103 (log entry 14), as is the report of a move within 50 cu as a step of its own (log entry 8);
that the moves take the axis positions last read is its choice (log entry 28). -/
def Obligations.ResumptionRestoresAim : Prop :=
  ∀ (s : State) (a : Aim) (u : Suspension) (r : TargetRecord),
    s.engine.state = .suspended → s.held = false → s.hz.state = .ready → s.vt.state = .ready →
    s.engine.aim = some a → s.engine.suspension = some u → s.table[a.slot]? = some (some r) → r.prism = u.prism →
    s.clock ≤ u.time + 10000 →
    (∀ d, s.filter r = .passes d →
      (u.state = .searching →
        s.tryResume = { s with
          engine := { s.engine with
            state := .searching
            dwelling := false
            suspension := none
            aim := some { a with
              abandonDeadline := none, reslews := 0, index := u.index, dwellCount := 0, awaitHz := true, awaitVt := true } }
          hz := s.tryResume.hz
          vt := s.tryResume.vt
          light := { s.light with window := some ⟨s.instant, [], []⟩, emitter := .off } } ∧
        DriveMoved .hz s.clock ((a.centre.hz + 12000 * (searchOffset u.index).1) % 4000000) s.hz s.tryResume.hz ∧
        DriveMoved .vt s.clock (max 200000 (min 1800000 (a.centre.v + 12000 * (searchOffset u.index).2))) s.vt
          s.tryResume.vt) ∧
      (u.state ≠ .searching →
        s.tryResume = { s with
          engine := { s.engine with
            state := .slewing
            dwelling := false
            suspension := none
            aim := some { a with
              abandonDeadline := none, reslews := 0, centre := ⟨d.hz, d.v⟩, centreSd := d.sd
              width := r.widthAt s.clock d.sd, rings := ringCount (r.widthAt s.clock d.sd), index := 0, dwellCount := 0
              awaitHz := true, awaitVt := true } }
          hz := s.tryResume.hz
          vt := s.tryResume.vt
          light := { s.light with window := none, emitter := .off } } ∧
        DriveMoved .hz s.clock (d.hz % 4000000) s.hz s.tryResume.hz ∧
        DriveMoved .vt s.clock (max 200000 (min 1800000 d.v)) s.vt s.tryResume.vt)) ∧
    (∀ why reason, s.filter r = .fails why → why.reason = some reason →
      s.tryResume = (s.finishAim (.unreachable reason) none).enterWaiting) ∧
    (s.filter r = .fails .noPrediction → s.tryResume = (s.finishAim .abandoned none).enterWaiting)

/-! ### The site line -/

/-- Characters from the line while no frame of the part's own is being sent (R144, R145, R149), under either name they come
by (R150, log entry 23), and the start bit (R154, log entry 9): a marked character of the own group and a known kind starts a
frame, any other mutes; an unmarked one joins a frame of fewer than 24 characters and else mutes it; a framing error mutes a
frame. The line is at mark after a character's stop bit, unless the part's own break holds it; after a framing error it is
so once the run of space ends, short of the 24 bit times of a break, by a free value (R142, log entry 9). -/
def Obligations.CharactersAssembleFrames : Prop :=
  ∀ (i : Instr) (c : LineChar) (s : State) (cfg : StationConfig),
    i = .receiveCharacter c ∨ i = .echoCharacter c → s.config = some cfg →
    (∀ out, s.line.transmitter ≠ .sending out) →
    (s.line.receiver = .break → exec i s = .next s) ∧
    (s.line.receiver ≠ .break →
      (∀ v : Byte, c = .marked v → v.toNat / 16 = cfg.group → 1 ≤ v.toNat % 16 → v.toNat % 16 ≤ 3 → exec i s =
        .next { s with line := { s.line with
          receiver := .receiving, assembler := [v], idleFrom := s.markFrom s.instant } }) ∧
      (∀ v : Byte, c = .marked v → v.toNat / 16 ≠ cfg.group ∨ v.toNat % 16 = 0 ∨ 3 < v.toNat % 16 → exec i s =
        .next { s with line := { s.line with receiver := .muted, assembler := [], idleFrom := s.markFrom s.instant } }) ∧
      (∀ v, c = .unmarked v → s.line.receiver = .receiving → s.line.assembler.length < 24 → exec i s =
        .next { s with line := { s.line with
          assembler := s.line.assembler ++ [v], idleFrom := s.markFrom s.instant } }) ∧
      ((∃ v, c = .unmarked v) → 24 ≤ s.line.assembler.length → s.line.receiver = .receiving → exec i s =
        .next { s with line := { s.line with receiver := .muted, assembler := [], idleFrom := s.markFrom s.instant } }) ∧
      ((∃ v, c = .unmarked v) → s.line.receiver ≠ .receiving → exec i s =
        .next { s with line := { s.line with idleFrom := s.markFrom s.instant } }) ∧
      (c = .framingError → s.spaceLeft < 15000 ∧
        (s.line.receiver = .receiving → exec i s = .next { s with
          choices := s.choices + 1
          line := { s.line with
            receiver := .muted, assembler := [], idleFrom := s.markFrom (s.instant + s.spaceLeft) } }) ∧
        (s.line.receiver ≠ .receiving → exec i s = .next { s with
          choices := s.choices + 1
          line := { s.line with idleFrom := s.markFrom (s.instant + s.spaceLeft) } }))) ∧
    exec .startBit s = .next { s with line := { s.line with idleFrom := none } }

/-- Sending (R154 to R157): when the idle time reaches the access gap of 3 plus the station number character times, 20
more after a collision, the head frame is taken out and sent; an equal echo goes on to the next character and the last
one ends the frame; a mismatch, or no echo within 2 character times, drops the frame and sets the collision mark. The part's
break is heard at its own receiver (R149): it drops the frame in progress after 11 bit times and begins a break after 24,
as events of the part's own, and time passes no further before that; after 48 it is released, which ends the break at the
receiver, or another station holds the line on, by a free value (log entry 29). Ahead of its time an expiry does nothing
(log entry 11). The idle count of R154 stays 0 to the end of the part's own frame, start bits and all, and after a framing
error until the line is at mark (log entry 9); it goes on through a late echo, and a collision or a frame cut short starts
it at that instant at the latest (log entry 19). -/
def Obligations.SendingRunsOnEcho : Prop :=
  ∀ s : State,
    (∀ (cfg : StationConfig) (t0 : Nat) (f : Frame) (rest : List Frame), s.config = some cfg →
      s.line.transmitter = .waitingGap → s.line.idleFrom = some t0 → s.line.queue = f :: rest →
      ((3 + cfg.station + if s.line.collision then 20 else 0) * 6875 ≤ s.instant - t0 → exec .accessGapExpiry s =
        .next { s with line := { s.line with
          queue := rest, transmitter := .sending ⟨frameChars cfg s.clock f, 0, s.instant⟩
          idleFrom := some (s.instant + (frameChars cfg s.clock f).length * 6875), collision := false } }) ∧
      (s.instant - t0 < (3 + cfg.station + if s.line.collision then 20 else 0) * 6875 →
        exec .accessGapExpiry s = .next s)) ∧
    (s.line.transmitter ≠ .waitingGap → exec .accessGapExpiry s = .next s) ∧
    (∀ out v, s.line.transmitter = .sending out → out.chars[out.echoed]? = some v →
      (∀ i c, i = .echoCharacter c ∨ i = .receiveCharacter c →
        (c = (if out.echoed = 0 then LineChar.marked v else LineChar.unmarked v) →
          (out.echoed + 1 < out.chars.length → exec i s = .next { s with line := { s.line with
            transmitter := .sending { out with echoed := out.echoed + 1 }
            idleFrom := s.markFrom (out.begun + out.chars.length * 6875) } }) ∧
          (out.chars.length = out.echoed + 1 → exec i s = .next { s with line := { s.line with
            transmitter := if s.line.queue = [] then .idle else .waitingGap, idleFrom := s.markFrom s.instant } })) ∧
        (c ≠ (if out.echoed = 0 then LineChar.marked v else LineChar.unmarked v) → exec i s = .next { s with
          choices := if c = .framingError ∧ s.line.receiver ≠ .break then s.choices + 1 else s.choices
          line := { s.line with
            transmitter := if s.line.queue = [] then .idle else .waitingGap
            idleFrom := s.markFrom (if c = .framingError then s.instant + s.spaceLeft else s.instant)
            collision := true } })) ∧
      (out.begun + (out.echoed + 3) * 6875 ≤ s.instant → exec .echoTimeout s = .next { s with line := { s.line with
        transmitter := if s.line.queue = [] then .idle else .waitingGap
        idleFrom := s.line.idleFrom.map (min · s.instant), collision := true } }) ∧
      (s.instant < out.begun + (out.echoed + 3) * 6875 → exec .echoTimeout s = .next s) ∧
      (s.instant < out.begun + out.chars.length * 6875 → exec .startBit s = .next s) ∧
      (out.begun + out.chars.length * 6875 ≤ s.instant →
        exec .startBit s = .next { s with line := { s.line with idleFrom := none } })) ∧
    (∀ w, s.line.transmitter = .sendingBreak w →
      (s.instant < w → exec .breakRelease s = .next s ∧
        (w ≤ s.instant + 23125 → s.line.receiver = .receiving →
          .receiveCharacter .framingError ∈ s.outstanding ∧ exec (.receiveCharacter .framingError) s = .next { s with
            choices := s.choices + 1, line := { s.line with receiver := .muted, assembler := [] } }) ∧
        (w ≤ s.instant + 15000 → s.line.receiver ≠ .break → .breakBegin ∈ s.outstanding)) ∧
      (s.pending = [] → s.fine < finePerMs → s.outstanding = [] → s.line.receiver ≠ .break →
        ∃ t, step s = .next t ∧ t = { s with clock := t.clock, fine := t.fine } ∧ s.instant < t.instant ∧
          t.instant + 15000 ≤ w) ∧
      (w ≤ s.instant → .breakRelease ∈ s.outstanding ∧
        (s.line.receiver ≠ .break → exec .breakRelease s = .next { s with line := { s.line with
          transmitter := if s.line.queue = [] then .idle else .waitingGap, idleFrom := some s.instant } }) ∧
        (s.line.receiver = .break → exec .breakRelease s = .next (
          if Config.otherBreak s.choices = false then { s with
            choices := s.choices + 1
            line := { s.line with
              receiver := .idle, transmitter := if s.line.queue = [] then .idle else .waitingGap
              idleFrom := some s.instant }
            peers := { s.peers with holdDeadline := some (s.clock + 3000) } }
          else { s with
            choices := s.choices + 1
            line := { s.line with
              transmitter := if s.line.queue = [] then .idle else .waitingGap, idleFrom := none } }))))

/-- The end of a frame (R146, R147, R160, R163 to R168): with the line idle for 2 character times the frame is tested. A
discarded one leaves no trace; a clash sets its mark, STATION_CLASH and listen-only; a PRESENCE makes or refreshes its
sender's record; a SIGHTING of a held prism offers its fix (R34), and one that becomes fix A (R31) brings the velocity (R35)
and a MACHINE's due time (R42) and makes a selection; an INTENT is stored, and of a better sender defers the MACHINE record
it names (R43): an IDLE one becomes DEFERRED, a DEFERRED one and one of a suspended aim takes the later time, and a running
aim on it ends YIELDED (R96). An INTENT of hold 0 stands until an expiry step of its own (the model's reading, log entry 13). A
FRAME_END outside RECEIVING, or before the 2 character times, does nothing (the model's reading, log entry 11), and the
marks dueArmed and deferArmed are the model's own (log entry 4). -/
def Obligations.FrameEndHandsOn : Prop :=
  ∀ (s : State) (cfg : StationConfig) (t0 : Nat), s.config = some cfg → s.lightConsistent →
    (s.line.receiver ≠ .receiving → exec .frameEnd s = .next s) ∧
    (s.line.receiver = .receiving → s.line.idleFrom = some t0 →
      (s.instant - t0 < 13750 → exec .frameEnd s = .next s) ∧
      (13750 ≤ s.instant - t0 →
        (validate cfg s.line.assembler = .discarded →
          exec .frameEnd s = .next { s with line := { s.line with receiver := .idle, assembler := [] } }) ∧
        (validate cfg s.line.assembler = .clash → exec .frameEnd s = .next { s with
          line := { s.line with
            receiver := .idle, assembler := [], listenOnly := true, queue := []
            transmitter := if s.line.transmitter = .waitingGap then .idle else s.line.transmitter }
          peers := { s.peers with clash := true }
          link := { s.link with events := { s.link.events with stationClash := true } } }) ∧
        (∀ sender f, validate cfg s.line.assembler = .valid sender f → s.peers.table.length = 8 → ∃ (e : Nat) (u : State) (p : Peer),
          e < 8 ∧ u = { s with
            line := { s.line with receiver := .idle, assembler := [] }
            peers := { s.peers with table := s.peers.table.set e (some p) } } ∧
          p.station = sender ∧ p.lastHeard = s.clock ∧
          (∀ q : Peer, s.peers.table[e]? = some (some q) → q.station = sender →
            ((∀ prism distance hold, f ≠ .intent prism distance hold) → p.intent = q.intent) ∧
              ((∀ run pos, f ≠ .presence run pos) → p.run = q.run ∧ p.pos = q.pos)) ∧
          ((∃ (j : Nat) (q : Peer), s.peers.table[j]? = some (some q) ∧ q.station = sender) →
            ∃ q : Peer, s.peers.table[e]? = some (some q) ∧ q.station = sender) ∧
          ((∀ (j : Nat) (q : Peer), s.peers.table[j]? = some (some q) → q.station ≠ sender) →
            ((∀ prism distance hold, f ≠ .intent prism distance hold) → p.intent = none) ∧
              ((∀ run pos, f ≠ .presence run pos) → p.run = none ∧ p.pos = none) ∧
              (∀ j, s.peers.table[j]? = some none → s.peers.table[e]? = some none ∧ e ≤ j) ∧
              (none ∉ s.peers.table → ∀ (j : Nat) (q q' : Peer), s.peers.table[e]? = some (some q) →
                s.peers.table[j]? = some (some q') → q.lastHeard ≤ q'.lastHeard)) ∧
          (∀ run pos, f = .presence run pos → p.run = some run ∧ p.pos = pos ∧ exec .frameEnd s = .next u) ∧
          (∀ prism pos quality age, f = .sighting prism pos quality age →
            ((∀ r : TargetRecord, some r ∈ s.table → r.prism ≠ prism) → exec .frameEnd s = .next u) ∧
            (∀ (k : Nat) (r : TargetRecord), s.table[k]? = some (some r) → r.prism = prism →
              (∀ (j : Nat) (q : TargetRecord), j < k → s.table[j]? = some (some q) → q.prism ≠ prism) →
              (r.cls = .control ∨ quality < 9 ∨ 5000 < age → exec .frameEnd s = .next u) ∧
              (∀ x : Fix, r.cls ≠ PrismClass.control → 9 ≤ quality → age ≤ 5000 →
                x = ⟨pos, s.clock - age, .peer sender, quality - 1⟩ → (∀ a, r.fixA = some a → a.time < x.time) →
                exec .frameEnd s = .next ({ u with table := u.table.set k (some { r with
                  fixA := some x
                  fixB := r.fixA
                  velocity := velocityOf r.cls (some x) r.fixA
                  due := if r.cls = PrismClass.machine then max r.due (x.time + r.interval) else r.due
                  dueArmed := r.dueArmed || (decide (r.cls = PrismClass.machine) && decide (r.due < x.time + r.interval)) }) }.select.followLight)) ∧
              (∀ a, r.fixA = some a → s.clock - age ≤ a.time → exec .frameEnd s = .next u))) ∧
          (∀ prism distance hold, f = .intent prism distance hold → p.intent = some ⟨prism, distance, s.clock + hold⟩ ∧
            ((∀ r : TargetRecord, some r ∈ s.table → r.prism = prism → r.cls ≠ PrismClass.machine) ∨ hold = 0 →
              exec .frameEnd s = .next u) ∧
            (∀ (k : Nat) (r : TargetRecord), s.table[k]? = some (some r) → r.prism = prism →
              (∀ (j : Nat) (q : TargetRecord), j < k → s.table[j]? = some (some q) → q.prism ≠ prism) →
              r.cls = .machine → 0 < hold →
              (s.ownDistance r = none ∨ (∃ d, s.ownDistance r = some d ∧ (distance < d ∨ distance = d ∧ sender < cfg.station)) →
                (r.state = .idle → exec .frameEnd s = .next ({ u with table := u.table.set k (some { r with
                  state := .deferred, deferUntil := some (s.clock + hold), deferArmed := true }) }.select.followLight)) ∧
                (r.state = .deferred ∨ r.state = .active ∧ s.engine.state.isRunningAim = false →
                  exec .frameEnd s = .next ({ u with table := u.table.set k (some { r with
                    deferUntil := some (max (r.deferUntil.getD 0) (s.clock + hold)), deferArmed := true }) }.select.followLight)) ∧
                (r.state = .active → s.engine.state.isRunningAim = true → exec .frameEnd s =
                  .next (u.finishAim .yielded (some (s.clock + hold))).enterWaiting.followLight)) ∧
              (∀ d, s.ownDistance r = some d → d < distance ∨ distance = d ∧ cfg.station < sender →
                exec .frameEnd s = .next u))))))

/-! ### The site hold -/

/-- The sources that bring the hold into force (R149, R169, R171, R173): a break on the line, and HOLD_IN asserted, which
also asks for a break and sets its repeat deadline; what the start of the hold does to the engine and the drives is
State.HoldStarted (R100, R123). A further source under a hold signals nothing; a source that stands already, an end of a
break that does not stand, or one told while the part itself holds the line at space, is no event (log entry 22). Every repeat deadline asks for a further break of 48 bit times,
unless one is being sent; a REPEAT_DEADLINE_EXPIRY ahead of its deadline, or with HOLD_IN released, does nothing (the
model's reading, log entry 11). The end of a break sets the hold deadline. That a report not yet taken is dropped by the
brake is the model's reading too (log entry 8). -/
def Obligations.HoldStartsAtSources : Prop :=
  ∀ s : State, s.lightConsistent → s.EngineConsistent →
    (s.line.receiver = .break → exec .breakBegin s = .next s) ∧
    (s.line.receiver ≠ .break → s.held = true → exec .breakBegin s =
      .next { s with line := { s.line with receiver := .break, assembler := [], idleFrom := none } }) ∧
    (s.line.receiver ≠ .break → s.held = false → ∃ t, exec .breakBegin s = .next t ∧ State.HoldStarted s t ∧
      t.line = { s.line with receiver := .break, assembler := [], idleFrom := none } ∧ t.peers = s.peers) ∧
    (s.peers.holdIn = true → exec .holdInRising s = .next s) ∧
    (s.peers.holdIn = false → ∃ t, exec .holdInRising s = .next t ∧ (s.held = false → State.HoldStarted s t) ∧
      (s.held = true → t = { s with line := t.line, peers := t.peers }) ∧
      t.peers = { s.peers with holdIn := true, repeatDeadline := some (s.clock + 1000) } ∧
      (∀ w, s.line.transmitter = .sendingBreak w → t.line = s.line) ∧
      ((∀ w, s.line.transmitter ≠ .sendingBreak w) → t.line =
        { s.line with transmitter := .sendingBreak (s.instant + 30000), idleFrom := none })) ∧
    (∀ n, s.peers.holdIn = true → s.peers.repeatDeadline = some n → n ≤ s.clock →
      ∃ t, exec .repeatDeadlineExpiry s = .next t ∧ t = { s with line := t.line, peers := t.peers } ∧
        t.peers = { s.peers with repeatDeadline := some (n + 1000) } ∧
        (∀ w, s.line.transmitter = .sendingBreak w → t.line = s.line) ∧
        ((∀ w, s.line.transmitter ≠ .sendingBreak w) → t.line =
          { s.line with transmitter := .sendingBreak (s.instant + 30000), idleFrom := none })) ∧
    (s.peers.holdIn = false ∨ (∀ n, s.peers.repeatDeadline = some n → s.clock < n) →
      exec .repeatDeadlineExpiry s = .next s) ∧
    (s.line.receiver = .break →
      ((∀ w, s.line.transmitter = .sendingBreak w → w ≤ s.instant) → (∀ out, s.line.transmitter ≠ .sending out) →
        exec .breakEnd s = .next { s with
          line := { s.line with receiver := .idle, idleFrom := some s.instant }
          peers := { s.peers with holdDeadline := some (s.clock + 3000) } }) ∧
      (∀ out, s.line.transmitter = .sending out → exec .breakEnd s = .next { s with
        line := { s.line with
          receiver := .idle, idleFrom := some (max s.instant (out.begun + out.chars.length * 6875)) }
        peers := { s.peers with holdDeadline := some (s.clock + 3000) } }) ∧
      (∀ w, s.line.transmitter = .sendingBreak w → s.instant < w → exec .breakEnd s = .next s)) ∧
    (s.line.receiver ≠ .break → exec .breakEnd s = .next s)

/-- The end of a source (R169, R170, R171, R173, R174): while another source stands the hold goes on with nothing signalled;
the last one to cease ends it: HOLD_CHANGED, both drives in their return states, and a selection. That the fall of HOLD_IN
makes that selection too is the model's reading (log entry 24). An expiry ahead of its deadline, or a fall of a released
level, does nothing (log entries 11 and 22). That the position is the one last read is the model's choice (log entry 28). -/
def Obligations.HoldEndsWithLastSource : Prop :=
  ∀ s : State, s.lightConsistent → s.stillInHold →
    (∀ n, s.peers.holdDeadline = some n → n ≤ s.clock →
      (s.peers.holdIn = true ∨ s.line.receiver = .break → exec .holdDeadlineExpiry s =
        .next { s with peers := { s.peers with holdDeadline := none } }) ∧
      (s.peers.holdIn = false → s.line.receiver ≠ .break → ∃ u, State.HoldReleased s u ∧ u.line = s.line ∧
        u.peers = { s.peers with holdDeadline := none } ∧ u.held = false ∧
        exec .holdDeadlineExpiry s = .next u.select.followLight)) ∧
    ((∀ n, s.peers.holdDeadline = some n → s.clock < n) → exec .holdDeadlineExpiry s = .next s) ∧
    (s.peers.holdIn = true →
      (s.peers.holdDeadline.isSome = true ∨ s.line.receiver = .break → exec .holdInFalling s =
        .next { s with peers := { s.peers with holdIn := false, repeatDeadline := none } }) ∧
      (s.peers.holdDeadline = none → s.line.receiver ≠ .break → ∃ u, State.HoldReleased s u ∧ u.line = s.line ∧
        u.peers = { s.peers with holdIn := false, repeatDeadline := none } ∧ u.held = false ∧
        exec .holdInFalling s = .next u.select.followLight)) ∧
    (s.peers.holdIn = false → exec .holdInFalling s = .next s)

/-! ### Layouts -/

/-- The transfer that carries a well-formed host command is taken as that command (R177, R192, R195, R196). -/
def Obligations.TransferRoundTrip : Prop :=
  ∀ (c : Instr) (bs : List Byte), c.wellFormed = true → encodeTransfer c = some bs → decodeTransfer bs = c

/-- A frame that one station sends passes the tests of another station of its group, with the fields it was offered with
and, for a SIGHTING, the age at its sending (R143, R147, R148, R151, R194). -/
def Obligations.FrameRoundTrip : Prop :=
  ∀ (cfg other : StationConfig) (now : Nat) (f : Frame), 1 ≤ cfg.station → cfg.station ≤ 15 → cfg.group ≤ 15 →
    other.group = cfg.group → other.station ≠ cfg.station →
    (match f with
    | .presence _ pos => ∀ g, pos = some g → gridInRange g = true
    | .sighting prism pos _ quality => 1 ≤ prism ∧ prism ≤ 250 ∧ gridInRange pos = true ∧ quality ≤ 15
    | .intent prism distance hold =>
      1 ≤ prism ∧ prism ≤ 250 ∧ 2000 ≤ distance ∧ distance ≤ 1500000 ∧ hold ≤ 65535) →
    validate other (frameChars cfg now f) = .valid cfg.station
      (match f with
      | .presence run pos => .presence run pos
      | .sighting prism pos fixTime quality => .sighting prism pos quality (min (now - fixTime) 65535)
      | .intent prism distance hold => .intent prism distance hold)
end

