-- ==== Sys2Proof/Laws/State.lean ====
section
/-! SUPPORT. One lemma per field per update of the State: what the plain updates leave unchanged and what they write. -/

namespace Sys2Proof.Machine

open Sys2Proof

variable (s : State)

/-! ### `State.respond` -/

@[simp] theorem State.respond_clock (code : Nat) (a : Answer) : (s.respond code a).clock = s.clock := rfl
@[simp] theorem State.respond_fine (code : Nat) (a : Answer) : (s.respond code a).fine = s.fine := rfl
@[simp] theorem State.respond_setup (code : Nat) (a : Answer) : (s.respond code a).setup = s.setup := rfl
@[simp] theorem State.respond_table (code : Nat) (a : Answer) : (s.respond code a).table = s.table := rfl
@[simp] theorem State.respond_sectors (code : Nat) (a : Answer) : (s.respond code a).sectors = s.sectors := rfl
@[simp] theorem State.respond_decayDue (code : Nat) (a : Answer) : (s.respond code a).decayDue = s.decayDue := rfl
@[simp] theorem State.respond_forced (code : Nat) (a : Answer) : (s.respond code a).forced = s.forced := rfl
@[simp] theorem State.respond_engine (code : Nat) (a : Answer) : (s.respond code a).engine = s.engine := rfl
@[simp] theorem State.respond_hz (code : Nat) (a : Answer) : (s.respond code a).hz = s.hz := rfl
@[simp] theorem State.respond_vt (code : Nat) (a : Answer) : (s.respond code a).vt = s.vt := rfl
@[simp] theorem State.respond_axesReadyRaised (code : Nat) (a : Answer) :
    (s.respond code a).axesReadyRaised = s.axesReadyRaised := rfl
@[simp] theorem State.respond_light (code : Nat) (a : Answer) : (s.respond code a).light = s.light := rfl
@[simp] theorem State.respond_config (code : Nat) (a : Answer) : (s.respond code a).config = s.config := rfl
@[simp] theorem State.respond_line (code : Nat) (a : Answer) : (s.respond code a).line = s.line := rfl
@[simp] theorem State.respond_peers (code : Nat) (a : Answer) : (s.respond code a).peers = s.peers := rfl
@[simp] theorem State.respond_choices (code : Nat) (a : Answer) : (s.respond code a).choices = s.choices := rfl
@[simp] theorem State.respond_pending (code : Nat) (a : Answer) : (s.respond code a).pending = s.pending := rfl

/-! ### `State.raise` -/

@[simp] theorem State.raise_clock (m : EventMark) : (s.raise m).clock = s.clock := rfl
@[simp] theorem State.raise_fine (m : EventMark) : (s.raise m).fine = s.fine := rfl
@[simp] theorem State.raise_setup (m : EventMark) : (s.raise m).setup = s.setup := rfl
@[simp] theorem State.raise_table (m : EventMark) : (s.raise m).table = s.table := rfl
@[simp] theorem State.raise_sectors (m : EventMark) : (s.raise m).sectors = s.sectors := rfl
@[simp] theorem State.raise_decayDue (m : EventMark) : (s.raise m).decayDue = s.decayDue := rfl
@[simp] theorem State.raise_forced (m : EventMark) : (s.raise m).forced = s.forced := rfl
@[simp] theorem State.raise_engine (m : EventMark) : (s.raise m).engine = s.engine := rfl
@[simp] theorem State.raise_hz (m : EventMark) : (s.raise m).hz = s.hz := rfl
@[simp] theorem State.raise_vt (m : EventMark) : (s.raise m).vt = s.vt := rfl
@[simp] theorem State.raise_axesReadyRaised (m : EventMark) : (s.raise m).axesReadyRaised = s.axesReadyRaised := rfl
@[simp] theorem State.raise_light (m : EventMark) : (s.raise m).light = s.light := rfl
@[simp] theorem State.raise_config (m : EventMark) : (s.raise m).config = s.config := rfl
@[simp] theorem State.raise_line (m : EventMark) : (s.raise m).line = s.line := rfl
@[simp] theorem State.raise_peers (m : EventMark) : (s.raise m).peers = s.peers := rfl
@[simp] theorem State.raise_choices (m : EventMark) : (s.raise m).choices = s.choices := rfl
@[simp] theorem State.raise_pending (m : EventMark) : (s.raise m).pending = s.pending := rfl

/-! ### `State.setRecord` -/

@[simp] theorem State.setRecord_clock (i : Nat) (r : Option TargetRecord) : (s.setRecord i r).clock = s.clock := rfl
@[simp] theorem State.setRecord_fine (i : Nat) (r : Option TargetRecord) : (s.setRecord i r).fine = s.fine := rfl
@[simp] theorem State.setRecord_setup (i : Nat) (r : Option TargetRecord) : (s.setRecord i r).setup = s.setup := rfl
@[simp] theorem State.setRecord_sectors (i : Nat) (r : Option TargetRecord) :
    (s.setRecord i r).sectors = s.sectors := rfl
@[simp] theorem State.setRecord_decayDue (i : Nat) (r : Option TargetRecord) :
    (s.setRecord i r).decayDue = s.decayDue := rfl
@[simp] theorem State.setRecord_forced (i : Nat) (r : Option TargetRecord) : (s.setRecord i r).forced = s.forced := rfl
@[simp] theorem State.setRecord_engine (i : Nat) (r : Option TargetRecord) : (s.setRecord i r).engine = s.engine := rfl
@[simp] theorem State.setRecord_hz (i : Nat) (r : Option TargetRecord) : (s.setRecord i r).hz = s.hz := rfl
@[simp] theorem State.setRecord_vt (i : Nat) (r : Option TargetRecord) : (s.setRecord i r).vt = s.vt := rfl
@[simp] theorem State.setRecord_axesReadyRaised (i : Nat) (r : Option TargetRecord) :
    (s.setRecord i r).axesReadyRaised = s.axesReadyRaised := rfl
@[simp] theorem State.setRecord_light (i : Nat) (r : Option TargetRecord) : (s.setRecord i r).light = s.light := rfl
@[simp] theorem State.setRecord_config (i : Nat) (r : Option TargetRecord) : (s.setRecord i r).config = s.config := rfl
@[simp] theorem State.setRecord_line (i : Nat) (r : Option TargetRecord) : (s.setRecord i r).line = s.line := rfl
@[simp] theorem State.setRecord_peers (i : Nat) (r : Option TargetRecord) : (s.setRecord i r).peers = s.peers := rfl
@[simp] theorem State.setRecord_link (i : Nat) (r : Option TargetRecord) : (s.setRecord i r).link = s.link := rfl
@[simp] theorem State.setRecord_choices (i : Nat) (r : Option TargetRecord) :
    (s.setRecord i r).choices = s.choices := rfl
@[simp] theorem State.setRecord_pending (i : Nat) (r : Option TargetRecord) :
    (s.setRecord i r).pending = s.pending := rfl

/-! ### `State.onAim` -/

@[simp] theorem State.onAim_clock (f : Aim → Aim) : (s.onAim f).clock = s.clock := rfl
@[simp] theorem State.onAim_fine (f : Aim → Aim) : (s.onAim f).fine = s.fine := rfl
@[simp] theorem State.onAim_setup (f : Aim → Aim) : (s.onAim f).setup = s.setup := rfl
@[simp] theorem State.onAim_table (f : Aim → Aim) : (s.onAim f).table = s.table := rfl
@[simp] theorem State.onAim_sectors (f : Aim → Aim) : (s.onAim f).sectors = s.sectors := rfl
@[simp] theorem State.onAim_decayDue (f : Aim → Aim) : (s.onAim f).decayDue = s.decayDue := rfl
@[simp] theorem State.onAim_forced (f : Aim → Aim) : (s.onAim f).forced = s.forced := rfl
@[simp] theorem State.onAim_hz (f : Aim → Aim) : (s.onAim f).hz = s.hz := rfl
@[simp] theorem State.onAim_vt (f : Aim → Aim) : (s.onAim f).vt = s.vt := rfl
@[simp] theorem State.onAim_axesReadyRaised (f : Aim → Aim) : (s.onAim f).axesReadyRaised = s.axesReadyRaised := rfl
@[simp] theorem State.onAim_light (f : Aim → Aim) : (s.onAim f).light = s.light := rfl
@[simp] theorem State.onAim_config (f : Aim → Aim) : (s.onAim f).config = s.config := rfl
@[simp] theorem State.onAim_line (f : Aim → Aim) : (s.onAim f).line = s.line := rfl
@[simp] theorem State.onAim_peers (f : Aim → Aim) : (s.onAim f).peers = s.peers := rfl
@[simp] theorem State.onAim_link (f : Aim → Aim) : (s.onAim f).link = s.link := rfl
@[simp] theorem State.onAim_choices (f : Aim → Aim) : (s.onAim f).choices = s.choices := rfl
@[simp] theorem State.onAim_pending (f : Aim → Aim) : (s.onAim f).pending = s.pending := rfl

/-! ### `State.discardAim` -/

@[simp] theorem State.discardAim_clock : (s.discardAim).clock = s.clock := rfl
@[simp] theorem State.discardAim_fine : (s.discardAim).fine = s.fine := rfl
@[simp] theorem State.discardAim_setup : (s.discardAim).setup = s.setup := rfl
@[simp] theorem State.discardAim_table : (s.discardAim).table = s.table := rfl
@[simp] theorem State.discardAim_sectors : (s.discardAim).sectors = s.sectors := rfl
@[simp] theorem State.discardAim_decayDue : (s.discardAim).decayDue = s.decayDue := rfl
@[simp] theorem State.discardAim_forced : (s.discardAim).forced = s.forced := rfl
@[simp] theorem State.discardAim_hz : (s.discardAim).hz = s.hz := rfl
@[simp] theorem State.discardAim_vt : (s.discardAim).vt = s.vt := rfl
@[simp] theorem State.discardAim_axesReadyRaised : (s.discardAim).axesReadyRaised = s.axesReadyRaised := rfl
@[simp] theorem State.discardAim_light : (s.discardAim).light = s.light := rfl
@[simp] theorem State.discardAim_config : (s.discardAim).config = s.config := rfl
@[simp] theorem State.discardAim_line : (s.discardAim).line = s.line := rfl
@[simp] theorem State.discardAim_peers : (s.discardAim).peers = s.peers := rfl
@[simp] theorem State.discardAim_link : (s.discardAim).link = s.link := rfl
@[simp] theorem State.discardAim_choices : (s.discardAim).choices = s.choices := rfl
@[simp] theorem State.discardAim_pending : (s.discardAim).pending = s.pending := rfl

/-! ### `State.beginWindow` -/

@[simp] theorem State.beginWindow_clock : (s.beginWindow).clock = s.clock := rfl
@[simp] theorem State.beginWindow_fine : (s.beginWindow).fine = s.fine := rfl
@[simp] theorem State.beginWindow_setup : (s.beginWindow).setup = s.setup := rfl
@[simp] theorem State.beginWindow_table : (s.beginWindow).table = s.table := rfl
@[simp] theorem State.beginWindow_sectors : (s.beginWindow).sectors = s.sectors := rfl
@[simp] theorem State.beginWindow_decayDue : (s.beginWindow).decayDue = s.decayDue := rfl
@[simp] theorem State.beginWindow_forced : (s.beginWindow).forced = s.forced := rfl
@[simp] theorem State.beginWindow_engine : (s.beginWindow).engine = s.engine := rfl
@[simp] theorem State.beginWindow_hz : (s.beginWindow).hz = s.hz := rfl
@[simp] theorem State.beginWindow_vt : (s.beginWindow).vt = s.vt := rfl
@[simp] theorem State.beginWindow_axesReadyRaised : (s.beginWindow).axesReadyRaised = s.axesReadyRaised := rfl
@[simp] theorem State.beginWindow_config : (s.beginWindow).config = s.config := rfl
@[simp] theorem State.beginWindow_line : (s.beginWindow).line = s.line := rfl
@[simp] theorem State.beginWindow_peers : (s.beginWindow).peers = s.peers := rfl
@[simp] theorem State.beginWindow_link : (s.beginWindow).link = s.link := rfl
@[simp] theorem State.beginWindow_choices : (s.beginWindow).choices = s.choices := rfl
@[simp] theorem State.beginWindow_pending : (s.beginWindow).pending = s.pending := rfl

/-! ### `State.dropWindow` -/

@[simp] theorem State.dropWindow_clock : (s.dropWindow).clock = s.clock := rfl
@[simp] theorem State.dropWindow_fine : (s.dropWindow).fine = s.fine := rfl
@[simp] theorem State.dropWindow_setup : (s.dropWindow).setup = s.setup := rfl
@[simp] theorem State.dropWindow_table : (s.dropWindow).table = s.table := rfl
@[simp] theorem State.dropWindow_sectors : (s.dropWindow).sectors = s.sectors := rfl
@[simp] theorem State.dropWindow_decayDue : (s.dropWindow).decayDue = s.decayDue := rfl
@[simp] theorem State.dropWindow_forced : (s.dropWindow).forced = s.forced := rfl
@[simp] theorem State.dropWindow_engine : (s.dropWindow).engine = s.engine := rfl
@[simp] theorem State.dropWindow_hz : (s.dropWindow).hz = s.hz := rfl
@[simp] theorem State.dropWindow_vt : (s.dropWindow).vt = s.vt := rfl
@[simp] theorem State.dropWindow_axesReadyRaised : (s.dropWindow).axesReadyRaised = s.axesReadyRaised := rfl
@[simp] theorem State.dropWindow_config : (s.dropWindow).config = s.config := rfl
@[simp] theorem State.dropWindow_line : (s.dropWindow).line = s.line := rfl
@[simp] theorem State.dropWindow_peers : (s.dropWindow).peers = s.peers := rfl
@[simp] theorem State.dropWindow_link : (s.dropWindow).link = s.link := rfl
@[simp] theorem State.dropWindow_choices : (s.dropWindow).choices = s.choices := rfl
@[simp] theorem State.dropWindow_pending : (s.dropWindow).pending = s.pending := rfl

/-! ### `State.changeBlock` -/

@[simp] theorem State.changeBlock_clock (o : AimOutcome) (k : Nat) : (s.changeBlock o k).clock = s.clock := rfl
@[simp] theorem State.changeBlock_fine (o : AimOutcome) (k : Nat) : (s.changeBlock o k).fine = s.fine := rfl
@[simp] theorem State.changeBlock_setup (o : AimOutcome) (k : Nat) : (s.changeBlock o k).setup = s.setup := rfl
@[simp] theorem State.changeBlock_table (o : AimOutcome) (k : Nat) : (s.changeBlock o k).table = s.table := rfl
@[simp] theorem State.changeBlock_decayDue (o : AimOutcome) (k : Nat) : (s.changeBlock o k).decayDue = s.decayDue := rfl
@[simp] theorem State.changeBlock_forced (o : AimOutcome) (k : Nat) : (s.changeBlock o k).forced = s.forced := rfl
@[simp] theorem State.changeBlock_engine (o : AimOutcome) (k : Nat) : (s.changeBlock o k).engine = s.engine := rfl
@[simp] theorem State.changeBlock_hz (o : AimOutcome) (k : Nat) : (s.changeBlock o k).hz = s.hz := rfl
@[simp] theorem State.changeBlock_vt (o : AimOutcome) (k : Nat) : (s.changeBlock o k).vt = s.vt := rfl
@[simp] theorem State.changeBlock_axesReadyRaised (o : AimOutcome) (k : Nat) :
    (s.changeBlock o k).axesReadyRaised = s.axesReadyRaised := rfl
@[simp] theorem State.changeBlock_light (o : AimOutcome) (k : Nat) : (s.changeBlock o k).light = s.light := rfl
@[simp] theorem State.changeBlock_config (o : AimOutcome) (k : Nat) : (s.changeBlock o k).config = s.config := rfl
@[simp] theorem State.changeBlock_line (o : AimOutcome) (k : Nat) : (s.changeBlock o k).line = s.line := rfl
@[simp] theorem State.changeBlock_peers (o : AimOutcome) (k : Nat) : (s.changeBlock o k).peers = s.peers := rfl
@[simp] theorem State.changeBlock_link (o : AimOutcome) (k : Nat) : (s.changeBlock o k).link = s.link := rfl
@[simp] theorem State.changeBlock_choices (o : AimOutcome) (k : Nat) : (s.changeBlock o k).choices = s.choices := rfl
@[simp] theorem State.changeBlock_pending (o : AimOutcome) (k : Nat) : (s.changeBlock o k).pending = s.pending := rfl

/-! ### `State.onPeers` -/

@[simp] theorem State.onPeers_clock (f : List (Option Peer) → List (Option Peer)) : (s.onPeers f).clock = s.clock := rfl
@[simp] theorem State.onPeers_fine (f : List (Option Peer) → List (Option Peer)) : (s.onPeers f).fine = s.fine := rfl
@[simp] theorem State.onPeers_setup (f : List (Option Peer) → List (Option Peer)) : (s.onPeers f).setup = s.setup := rfl
@[simp] theorem State.onPeers_table (f : List (Option Peer) → List (Option Peer)) : (s.onPeers f).table = s.table := rfl
@[simp] theorem State.onPeers_sectors (f : List (Option Peer) → List (Option Peer)) :
    (s.onPeers f).sectors = s.sectors := rfl
@[simp] theorem State.onPeers_decayDue (f : List (Option Peer) → List (Option Peer)) :
    (s.onPeers f).decayDue = s.decayDue := rfl
@[simp] theorem State.onPeers_forced (f : List (Option Peer) → List (Option Peer)) :
    (s.onPeers f).forced = s.forced := rfl
@[simp] theorem State.onPeers_engine (f : List (Option Peer) → List (Option Peer)) :
    (s.onPeers f).engine = s.engine := rfl
@[simp] theorem State.onPeers_hz (f : List (Option Peer) → List (Option Peer)) : (s.onPeers f).hz = s.hz := rfl
@[simp] theorem State.onPeers_vt (f : List (Option Peer) → List (Option Peer)) : (s.onPeers f).vt = s.vt := rfl
@[simp] theorem State.onPeers_axesReadyRaised (f : List (Option Peer) → List (Option Peer)) :
    (s.onPeers f).axesReadyRaised = s.axesReadyRaised := rfl
@[simp] theorem State.onPeers_light (f : List (Option Peer) → List (Option Peer)) : (s.onPeers f).light = s.light := rfl
@[simp] theorem State.onPeers_config (f : List (Option Peer) → List (Option Peer)) :
    (s.onPeers f).config = s.config := rfl
@[simp] theorem State.onPeers_line (f : List (Option Peer) → List (Option Peer)) : (s.onPeers f).line = s.line := rfl
@[simp] theorem State.onPeers_link (f : List (Option Peer) → List (Option Peer)) : (s.onPeers f).link = s.link := rfl
@[simp] theorem State.onPeers_choices (f : List (Option Peer) → List (Option Peer)) :
    (s.onPeers f).choices = s.choices := rfl
@[simp] theorem State.onPeers_pending (f : List (Option Peer) → List (Option Peer)) :
    (s.onPeers f).pending = s.pending := rfl

/-! ### `State.onWindow` -/

@[simp] theorem State.onWindow_clock (f : Window → Window) : (s.onWindow f).clock = s.clock := rfl
@[simp] theorem State.onWindow_fine (f : Window → Window) : (s.onWindow f).fine = s.fine := rfl
@[simp] theorem State.onWindow_setup (f : Window → Window) : (s.onWindow f).setup = s.setup := rfl
@[simp] theorem State.onWindow_table (f : Window → Window) : (s.onWindow f).table = s.table := rfl
@[simp] theorem State.onWindow_sectors (f : Window → Window) : (s.onWindow f).sectors = s.sectors := rfl
@[simp] theorem State.onWindow_decayDue (f : Window → Window) : (s.onWindow f).decayDue = s.decayDue := rfl
@[simp] theorem State.onWindow_forced (f : Window → Window) : (s.onWindow f).forced = s.forced := rfl
@[simp] theorem State.onWindow_engine (f : Window → Window) : (s.onWindow f).engine = s.engine := rfl
@[simp] theorem State.onWindow_hz (f : Window → Window) : (s.onWindow f).hz = s.hz := rfl
@[simp] theorem State.onWindow_vt (f : Window → Window) : (s.onWindow f).vt = s.vt := rfl
@[simp] theorem State.onWindow_axesReadyRaised (f : Window → Window) :
    (s.onWindow f).axesReadyRaised = s.axesReadyRaised := rfl
@[simp] theorem State.onWindow_config (f : Window → Window) : (s.onWindow f).config = s.config := rfl
@[simp] theorem State.onWindow_line (f : Window → Window) : (s.onWindow f).line = s.line := rfl
@[simp] theorem State.onWindow_peers (f : Window → Window) : (s.onWindow f).peers = s.peers := rfl
@[simp] theorem State.onWindow_link (f : Window → Window) : (s.onWindow f).link = s.link := rfl
@[simp] theorem State.onWindow_choices (f : Window → Window) : (s.onWindow f).choices = s.choices := rfl
@[simp] theorem State.onWindow_pending (f : Window → Window) : (s.onWindow f).pending = s.pending := rfl

/-! ### `State.receive` -/

@[simp] theorem State.receive_clock (c : LineChar) : (s.receive c).clock = s.clock := rfl
@[simp] theorem State.receive_fine (c : LineChar) : (s.receive c).fine = s.fine := rfl
@[simp] theorem State.receive_setup (c : LineChar) : (s.receive c).setup = s.setup := rfl
@[simp] theorem State.receive_table (c : LineChar) : (s.receive c).table = s.table := rfl
@[simp] theorem State.receive_sectors (c : LineChar) : (s.receive c).sectors = s.sectors := rfl
@[simp] theorem State.receive_decayDue (c : LineChar) : (s.receive c).decayDue = s.decayDue := rfl
@[simp] theorem State.receive_forced (c : LineChar) : (s.receive c).forced = s.forced := rfl
@[simp] theorem State.receive_engine (c : LineChar) : (s.receive c).engine = s.engine := rfl
@[simp] theorem State.receive_hz (c : LineChar) : (s.receive c).hz = s.hz := rfl
@[simp] theorem State.receive_vt (c : LineChar) : (s.receive c).vt = s.vt := rfl
@[simp] theorem State.receive_axesReadyRaised (c : LineChar) : (s.receive c).axesReadyRaised = s.axesReadyRaised := rfl
@[simp] theorem State.receive_light (c : LineChar) : (s.receive c).light = s.light := rfl
@[simp] theorem State.receive_config (c : LineChar) : (s.receive c).config = s.config := rfl
@[simp] theorem State.receive_peers (c : LineChar) : (s.receive c).peers = s.peers := rfl
@[simp] theorem State.receive_link (c : LineChar) : (s.receive c).link = s.link := rfl
@[simp] theorem State.receive_choices (c : LineChar) : (s.receive c).choices = s.choices := rfl
@[simp] theorem State.receive_pending (c : LineChar) : (s.receive c).pending = s.pending := rfl

/-! ### `State.collide` -/

@[simp] theorem State.collide_clock : (s.collide).clock = s.clock := rfl
@[simp] theorem State.collide_fine : (s.collide).fine = s.fine := rfl
@[simp] theorem State.collide_setup : (s.collide).setup = s.setup := rfl
@[simp] theorem State.collide_table : (s.collide).table = s.table := rfl
@[simp] theorem State.collide_sectors : (s.collide).sectors = s.sectors := rfl
@[simp] theorem State.collide_decayDue : (s.collide).decayDue = s.decayDue := rfl
@[simp] theorem State.collide_forced : (s.collide).forced = s.forced := rfl
@[simp] theorem State.collide_engine : (s.collide).engine = s.engine := rfl
@[simp] theorem State.collide_hz : (s.collide).hz = s.hz := rfl
@[simp] theorem State.collide_vt : (s.collide).vt = s.vt := rfl
@[simp] theorem State.collide_axesReadyRaised : (s.collide).axesReadyRaised = s.axesReadyRaised := rfl
@[simp] theorem State.collide_light : (s.collide).light = s.light := rfl
@[simp] theorem State.collide_config : (s.collide).config = s.config := rfl
@[simp] theorem State.collide_peers : (s.collide).peers = s.peers := rfl
@[simp] theorem State.collide_link : (s.collide).link = s.link := rfl
@[simp] theorem State.collide_choices : (s.collide).choices = s.choices := rfl
@[simp] theorem State.collide_pending : (s.collide).pending = s.pending := rfl

/-! ### `SiteLine.cutShort` -/

@[simp] theorem SiteLine.cutShort_receiver (l : SiteLine) (n : Nat) : (l.cutShort n).receiver = l.receiver := rfl
@[simp] theorem SiteLine.cutShort_assembler (l : SiteLine) (n : Nat) : (l.cutShort n).assembler = l.assembler := rfl
@[simp] theorem SiteLine.cutShort_queue (l : SiteLine) (n : Nat) : (l.cutShort n).queue = l.queue := rfl
@[simp] theorem SiteLine.cutShort_transmitter (l : SiteLine) (n : Nat) : (l.cutShort n).transmitter = l.transmitter := rfl
@[simp] theorem SiteLine.cutShort_idleFrom (l : SiteLine) (n : Nat) : (l.cutShort n).idleFrom = l.idleFrom.map (min · n) := rfl
@[simp] theorem SiteLine.cutShort_collision (l : SiteLine) (n : Nat) : (l.cutShort n).collision = l.collision := rfl
@[simp] theorem SiteLine.cutShort_listenOnly (l : SiteLine) (n : Nat) : (l.cutShort n).listenOnly = l.listenOnly := rfl

/-! ### `State.breakSeen` -/

@[simp] theorem State.breakSeen_clock : (s.breakSeen).clock = s.clock := rfl
@[simp] theorem State.breakSeen_fine : (s.breakSeen).fine = s.fine := rfl
@[simp] theorem State.breakSeen_setup : (s.breakSeen).setup = s.setup := rfl
@[simp] theorem State.breakSeen_table : (s.breakSeen).table = s.table := rfl
@[simp] theorem State.breakSeen_sectors : (s.breakSeen).sectors = s.sectors := rfl
@[simp] theorem State.breakSeen_decayDue : (s.breakSeen).decayDue = s.decayDue := rfl
@[simp] theorem State.breakSeen_forced : (s.breakSeen).forced = s.forced := rfl
@[simp] theorem State.breakSeen_engine : (s.breakSeen).engine = s.engine := rfl
@[simp] theorem State.breakSeen_hz : (s.breakSeen).hz = s.hz := rfl
@[simp] theorem State.breakSeen_vt : (s.breakSeen).vt = s.vt := rfl
@[simp] theorem State.breakSeen_axesReadyRaised : (s.breakSeen).axesReadyRaised = s.axesReadyRaised := rfl
@[simp] theorem State.breakSeen_light : (s.breakSeen).light = s.light := rfl
@[simp] theorem State.breakSeen_config : (s.breakSeen).config = s.config := rfl
@[simp] theorem State.breakSeen_peers : (s.breakSeen).peers = s.peers := rfl
@[simp] theorem State.breakSeen_link : (s.breakSeen).link = s.link := rfl
@[simp] theorem State.breakSeen_choices : (s.breakSeen).choices = s.choices := rfl
@[simp] theorem State.breakSeen_pending : (s.breakSeen).pending = s.pending := rfl

/-! ### `State.breakOver` -/

@[simp] theorem State.breakOver_clock : (s.breakOver).clock = s.clock := rfl
@[simp] theorem State.breakOver_fine : (s.breakOver).fine = s.fine := rfl
@[simp] theorem State.breakOver_setup : (s.breakOver).setup = s.setup := rfl
@[simp] theorem State.breakOver_table : (s.breakOver).table = s.table := rfl
@[simp] theorem State.breakOver_sectors : (s.breakOver).sectors = s.sectors := rfl
@[simp] theorem State.breakOver_decayDue : (s.breakOver).decayDue = s.decayDue := rfl
@[simp] theorem State.breakOver_forced : (s.breakOver).forced = s.forced := rfl
@[simp] theorem State.breakOver_engine : (s.breakOver).engine = s.engine := rfl
@[simp] theorem State.breakOver_hz : (s.breakOver).hz = s.hz := rfl
@[simp] theorem State.breakOver_vt : (s.breakOver).vt = s.vt := rfl
@[simp] theorem State.breakOver_axesReadyRaised : (s.breakOver).axesReadyRaised = s.axesReadyRaised := rfl
@[simp] theorem State.breakOver_light : (s.breakOver).light = s.light := rfl
@[simp] theorem State.breakOver_config : (s.breakOver).config = s.config := rfl
@[simp] theorem State.breakOver_link : (s.breakOver).link = s.link := rfl
@[simp] theorem State.breakOver_choices : (s.breakOver).choices = s.choices := rfl
@[simp] theorem State.breakOver_pending : (s.breakOver).pending = s.pending := rfl

/-! ### `State.releaseBreak` -/

@[simp] theorem State.releaseBreak_clock : (s.releaseBreak).clock = s.clock := by
  unfold State.releaseBreak; dsimp only; (repeat' split) <;> rfl
@[simp] theorem State.releaseBreak_fine : (s.releaseBreak).fine = s.fine := by
  unfold State.releaseBreak; dsimp only; (repeat' split) <;> rfl
@[simp] theorem State.releaseBreak_setup : (s.releaseBreak).setup = s.setup := by
  unfold State.releaseBreak; dsimp only; (repeat' split) <;> rfl
@[simp] theorem State.releaseBreak_table : (s.releaseBreak).table = s.table := by
  unfold State.releaseBreak; dsimp only; (repeat' split) <;> rfl
@[simp] theorem State.releaseBreak_sectors : (s.releaseBreak).sectors = s.sectors := by
  unfold State.releaseBreak; dsimp only; (repeat' split) <;> rfl
@[simp] theorem State.releaseBreak_decayDue : (s.releaseBreak).decayDue = s.decayDue := by
  unfold State.releaseBreak; dsimp only; (repeat' split) <;> rfl
@[simp] theorem State.releaseBreak_forced : (s.releaseBreak).forced = s.forced := by
  unfold State.releaseBreak; dsimp only; (repeat' split) <;> rfl
@[simp] theorem State.releaseBreak_engine : (s.releaseBreak).engine = s.engine := by
  unfold State.releaseBreak; dsimp only; (repeat' split) <;> rfl
@[simp] theorem State.releaseBreak_hz : (s.releaseBreak).hz = s.hz := by
  unfold State.releaseBreak; dsimp only; (repeat' split) <;> rfl
@[simp] theorem State.releaseBreak_vt : (s.releaseBreak).vt = s.vt := by
  unfold State.releaseBreak; dsimp only; (repeat' split) <;> rfl
@[simp] theorem State.releaseBreak_axesReadyRaised : (s.releaseBreak).axesReadyRaised = s.axesReadyRaised := by
  unfold State.releaseBreak; dsimp only; (repeat' split) <;> rfl
@[simp] theorem State.releaseBreak_light : (s.releaseBreak).light = s.light := by
  unfold State.releaseBreak; dsimp only; (repeat' split) <;> rfl
@[simp] theorem State.releaseBreak_config : (s.releaseBreak).config = s.config := by
  unfold State.releaseBreak; dsimp only; (repeat' split) <;> rfl
@[simp] theorem State.releaseBreak_peers : (s.releaseBreak).peers =
    if s.line.receiver = .break ∧ Config.otherBreak s.choices = false then
      { s.peers with holdDeadline := some (s.clock + 3000) }
    else s.peers := by
  unfold State.releaseBreak; dsimp only; repeat' split
  all_goals simp_all [State.tookChoice, State.breakOver]
@[simp] theorem State.releaseBreak_link : (s.releaseBreak).link = s.link := by
  unfold State.releaseBreak; dsimp only; (repeat' split) <;> rfl
@[simp] theorem State.releaseBreak_choices : (s.releaseBreak).choices =
    if s.line.receiver = .break then s.choices + 1 else s.choices := by
  unfold State.releaseBreak; dsimp only; (repeat' split) <;> rfl
@[simp] theorem State.releaseBreak_pending : (s.releaseBreak).pending = s.pending := by
  unfold State.releaseBreak; dsimp only; (repeat' split) <;> rfl

/-! ### `State.holdInReleased` -/

@[simp] theorem State.holdInReleased_clock : (s.holdInReleased).clock = s.clock := rfl
@[simp] theorem State.holdInReleased_fine : (s.holdInReleased).fine = s.fine := rfl
@[simp] theorem State.holdInReleased_setup : (s.holdInReleased).setup = s.setup := rfl
@[simp] theorem State.holdInReleased_table : (s.holdInReleased).table = s.table := rfl
@[simp] theorem State.holdInReleased_sectors : (s.holdInReleased).sectors = s.sectors := rfl
@[simp] theorem State.holdInReleased_decayDue : (s.holdInReleased).decayDue = s.decayDue := rfl
@[simp] theorem State.holdInReleased_forced : (s.holdInReleased).forced = s.forced := rfl
@[simp] theorem State.holdInReleased_engine : (s.holdInReleased).engine = s.engine := rfl
@[simp] theorem State.holdInReleased_hz : (s.holdInReleased).hz = s.hz := rfl
@[simp] theorem State.holdInReleased_vt : (s.holdInReleased).vt = s.vt := rfl
@[simp] theorem State.holdInReleased_axesReadyRaised : (s.holdInReleased).axesReadyRaised = s.axesReadyRaised := rfl
@[simp] theorem State.holdInReleased_light : (s.holdInReleased).light = s.light := rfl
@[simp] theorem State.holdInReleased_config : (s.holdInReleased).config = s.config := rfl
@[simp] theorem State.holdInReleased_line : (s.holdInReleased).line = s.line := rfl
@[simp] theorem State.holdInReleased_link : (s.holdInReleased).link = s.link := rfl
@[simp] theorem State.holdInReleased_choices : (s.holdInReleased).choices = s.choices := rfl
@[simp] theorem State.holdInReleased_pending : (s.holdInReleased).pending = s.pending := rfl

/-! ### `State.dropHoldDeadline` -/

@[simp] theorem State.dropHoldDeadline_clock : (s.dropHoldDeadline).clock = s.clock := rfl
@[simp] theorem State.dropHoldDeadline_fine : (s.dropHoldDeadline).fine = s.fine := rfl
@[simp] theorem State.dropHoldDeadline_setup : (s.dropHoldDeadline).setup = s.setup := rfl
@[simp] theorem State.dropHoldDeadline_table : (s.dropHoldDeadline).table = s.table := rfl
@[simp] theorem State.dropHoldDeadline_sectors : (s.dropHoldDeadline).sectors = s.sectors := rfl
@[simp] theorem State.dropHoldDeadline_decayDue : (s.dropHoldDeadline).decayDue = s.decayDue := rfl
@[simp] theorem State.dropHoldDeadline_forced : (s.dropHoldDeadline).forced = s.forced := rfl
@[simp] theorem State.dropHoldDeadline_engine : (s.dropHoldDeadline).engine = s.engine := rfl
@[simp] theorem State.dropHoldDeadline_hz : (s.dropHoldDeadline).hz = s.hz := rfl
@[simp] theorem State.dropHoldDeadline_vt : (s.dropHoldDeadline).vt = s.vt := rfl
@[simp] theorem State.dropHoldDeadline_axesReadyRaised : (s.dropHoldDeadline).axesReadyRaised = s.axesReadyRaised := rfl
@[simp] theorem State.dropHoldDeadline_light : (s.dropHoldDeadline).light = s.light := rfl
@[simp] theorem State.dropHoldDeadline_config : (s.dropHoldDeadline).config = s.config := rfl
@[simp] theorem State.dropHoldDeadline_line : (s.dropHoldDeadline).line = s.line := rfl
@[simp] theorem State.dropHoldDeadline_link : (s.dropHoldDeadline).link = s.link := rfl
@[simp] theorem State.dropHoldDeadline_choices : (s.dropHoldDeadline).choices = s.choices := rfl
@[simp] theorem State.dropHoldDeadline_pending : (s.dropHoldDeadline).pending = s.pending := rfl

/-! ### `State.passTime` -/

@[simp] theorem State.passTime_setup : (s.passTime).setup = s.setup := rfl
@[simp] theorem State.passTime_table : (s.passTime).table = s.table := rfl
@[simp] theorem State.passTime_sectors : (s.passTime).sectors = s.sectors := rfl
@[simp] theorem State.passTime_decayDue : (s.passTime).decayDue = s.decayDue := rfl
@[simp] theorem State.passTime_forced : (s.passTime).forced = s.forced := rfl
@[simp] theorem State.passTime_engine : (s.passTime).engine = s.engine := rfl
@[simp] theorem State.passTime_hz : (s.passTime).hz = s.hz := rfl
@[simp] theorem State.passTime_vt : (s.passTime).vt = s.vt := rfl
@[simp] theorem State.passTime_axesReadyRaised : (s.passTime).axesReadyRaised = s.axesReadyRaised := rfl
@[simp] theorem State.passTime_light : (s.passTime).light = s.light := rfl
@[simp] theorem State.passTime_config : (s.passTime).config = s.config := rfl
@[simp] theorem State.passTime_line : (s.passTime).line = s.line := rfl
@[simp] theorem State.passTime_peers : (s.passTime).peers = s.peers := rfl
@[simp] theorem State.passTime_link : (s.passTime).link = s.link := rfl
@[simp] theorem State.passTime_choices : (s.passTime).choices = s.choices := rfl
@[simp] theorem State.passTime_pending : (s.passTime).pending = s.pending := rfl

/-! ### What the plain updates write -/

@[simp] theorem State.respond_slot (code : Nat) (a : Answer) : (s.respond code a).link.slot = some ⟨code, a⟩ := rfl
@[simp] theorem State.respond_observations (code : Nat) (a : Answer) :
    (s.respond code a).link.observations = s.link.observations := rfl
@[simp] theorem State.respond_events (code : Nat) (a : Answer) : (s.respond code a).link.events = s.link.events := rfl
@[simp] theorem State.raise_slot (m : EventMark) : (s.raise m).link.slot = s.link.slot := rfl
@[simp] theorem State.raise_observations (m : EventMark) : (s.raise m).link.observations = s.link.observations := rfl
@[simp] theorem State.raise_events (m : EventMark) : (s.raise m).link.events = setMark m s.link.events := rfl
@[simp] theorem State.setRecord_table (i : Nat) (r : Option TargetRecord) : (s.setRecord i r).table = s.table.set i r := rfl
@[simp] theorem State.onAim_aim (f : Aim → Aim) : (s.onAim f).engine.aim = s.engine.aim.map f := rfl
@[simp] theorem State.onAim_state (f : Aim → Aim) : (s.onAim f).engine.state = s.engine.state := rfl
@[simp] theorem State.onAim_suspension (f : Aim → Aim) : (s.onAim f).engine.suspension = s.engine.suspension := rfl
@[simp] theorem State.onAim_openObs (f : Aim → Aim) : (s.onAim f).engine.openObs = s.engine.openObs := rfl
@[simp] theorem State.onAim_sequence (f : Aim → Aim) : (s.onAim f).engine.sequence = s.engine.sequence := rfl
@[simp] theorem State.onAim_dwelling (f : Aim → Aim) : (s.onAim f).engine.dwelling = s.engine.dwelling := rfl
@[simp] theorem State.discardAim_aim : s.discardAim.engine.aim = none := rfl
@[simp] theorem State.discardAim_suspension : s.discardAim.engine.suspension = none := rfl
@[simp] theorem State.discardAim_state : s.discardAim.engine.state = s.engine.state := rfl
@[simp] theorem State.discardAim_openObs : s.discardAim.engine.openObs = s.engine.openObs := rfl
@[simp] theorem State.beginWindow_window : s.beginWindow.light.window = some ⟨s.instant, [], []⟩ := rfl
@[simp] theorem State.beginWindow_emitter : s.beginWindow.light.emitter = s.light.emitter := rfl
@[simp] theorem State.dropWindow_window : s.dropWindow.light.window = none := rfl
@[simp] theorem State.dropWindow_emitter : s.dropWindow.light.emitter = s.light.emitter := rfl
@[simp] theorem State.onPeers_peersTable (f : List (Option Peer) → List (Option Peer)) :
    (s.onPeers f).peers.table = f s.peers.table := rfl
@[simp] theorem State.onWindow_window (f : Window → Window) : (s.onWindow f).light.window = s.light.window.map f := rfl

/-! ### A drive written by its axis -/

@[simp] theorem State.drive_hz : s.drive .hz = s.hz := rfl
@[simp] theorem State.drive_vt : s.drive .vt = s.vt := rfl
@[simp] theorem State.setDrive_hz (d : Drive) : s.setDrive .hz d = { s with hz := d } := rfl
@[simp] theorem State.setDrive_vt (d : Drive) : s.setDrive .vt d = { s with vt := d } := rfl
@[simp] theorem State.onDrive_hz (f : Drive → Drive) : s.onDrive .hz f = { s with hz := f s.hz } := rfl
@[simp] theorem State.onDrive_vt (f : Drive → Drive) : s.onDrive .vt f = { s with vt := f s.vt } := rfl
@[simp] theorem State.setDrive_drive (ax : Axis) (d : Drive) : (s.setDrive ax d).drive ax = d := by cases ax <;> rfl
@[simp] theorem State.onDrive_drive (ax : Axis) (f : Drive → Drive) : (s.onDrive ax f).drive ax = f (s.drive ax) := by
  cases ax <;> rfl
@[simp] theorem State.onDrive_otherDrive (ax : Axis) (f : Drive → Drive) :
    (s.onDrive ax f).drive (otherAxis ax) = s.drive (otherAxis ax) := by cases ax <;> rfl

@[simp] theorem State.onDrive_clock (ax : Axis) (f : Drive → Drive) : (s.onDrive ax f).clock = s.clock := by
  cases ax <;> rfl
@[simp] theorem State.onDrive_fine (ax : Axis) (f : Drive → Drive) : (s.onDrive ax f).fine = s.fine := by
  cases ax <;> rfl
@[simp] theorem State.onDrive_setup (ax : Axis) (f : Drive → Drive) : (s.onDrive ax f).setup = s.setup := by
  cases ax <;> rfl
@[simp] theorem State.onDrive_table (ax : Axis) (f : Drive → Drive) : (s.onDrive ax f).table = s.table := by
  cases ax <;> rfl
@[simp] theorem State.onDrive_sectors (ax : Axis) (f : Drive → Drive) : (s.onDrive ax f).sectors = s.sectors := by
  cases ax <;> rfl
@[simp] theorem State.onDrive_decayDue (ax : Axis) (f : Drive → Drive) : (s.onDrive ax f).decayDue = s.decayDue := by
  cases ax <;> rfl
@[simp] theorem State.onDrive_forced (ax : Axis) (f : Drive → Drive) : (s.onDrive ax f).forced = s.forced := by
  cases ax <;> rfl
@[simp] theorem State.onDrive_engine (ax : Axis) (f : Drive → Drive) : (s.onDrive ax f).engine = s.engine := by
  cases ax <;> rfl
@[simp] theorem State.onDrive_axesReadyRaised (ax : Axis) (f : Drive → Drive) : (s.onDrive ax f).axesReadyRaised = s.axesReadyRaised := by
  cases ax <;> rfl
@[simp] theorem State.onDrive_light (ax : Axis) (f : Drive → Drive) : (s.onDrive ax f).light = s.light := by
  cases ax <;> rfl
@[simp] theorem State.onDrive_config (ax : Axis) (f : Drive → Drive) : (s.onDrive ax f).config = s.config := by
  cases ax <;> rfl
@[simp] theorem State.onDrive_line (ax : Axis) (f : Drive → Drive) : (s.onDrive ax f).line = s.line := by
  cases ax <;> rfl
@[simp] theorem State.onDrive_peers (ax : Axis) (f : Drive → Drive) : (s.onDrive ax f).peers = s.peers := by
  cases ax <;> rfl
@[simp] theorem State.onDrive_link (ax : Axis) (f : Drive → Drive) : (s.onDrive ax f).link = s.link := by
  cases ax <;> rfl
@[simp] theorem State.onDrive_choices (ax : Axis) (f : Drive → Drive) : (s.onDrive ax f).choices = s.choices := by
  cases ax <;> rfl
@[simp] theorem State.onDrive_pending (ax : Axis) (f : Drive → Drive) : (s.onDrive ax f).pending = s.pending := by
  cases ax <;> rfl

end Sys2Proof.Machine
end

