-- ==== Sys2Proof/Laws/Drives.lean ====
section
/-! SUPPORT. What the operations on one drive keep: its record's consistency (R105), and its stillness in the hold
(R123). -/

namespace Sys2Proof.Machine

open Sys2Proof

variable (ax : Axis) (now : Nat) {d : Drive}

theorem Drive.reset_consistent : Drive.reset.Consistent := ⟨rfl, rfl, rfl, rfl⟩

/-- A change that leaves state, fault code, return state, target, midpoint and indexed mark keeps consistency. -/
theorem Drive.Consistent.congr {e : Drive} (h : d.Consistent) (hs : e.state = d.state) (hf : e.fault = d.fault)
    (hr : e.returnState = d.returnState) (ht : e.target = d.target) (hm : e.midpoint = d.midpoint)
    (hi : e.indexed = d.indexed) : e.Consistent := by
  obtain ⟨h1, h2, h3, h4⟩ := h
  exact ⟨by rw [hs, hf, h1], by rw [hs, hr, h2], by rw [hs, ht, h3], by rw [hm, hi, h4]⟩

theorem Drive.read_consistent (first : Nat) (raw : Int) (h : d.Consistent) : (d.read ax first raw).Consistent :=
  h.congr rfl rfl rfl rfl rfl rfl

@[simp] theorem Drive.read_state (first : Nat) (raw : Int) : (d.read ax first raw).state = d.state := rfl
@[simp] theorem Drive.read_raw (first : Nat) (raw : Int) : (d.read ax first raw).raw = raw := rfl
@[simp] theorem Drive.read_target (first : Nat) (raw : Int) : (d.read ax first raw).target = d.target := rfl
@[simp] theorem Drive.read_indexed (first : Nat) (raw : Int) : (d.read ax first raw).indexed = d.indexed := rfl

/-- In READY, MOVING or FINE a consistent drive has no fault code and no return state. -/
theorem Drive.Consistent.performing (h : d.Consistent) (hp : d.state.performs = true) :
    d.fault = none ∧ d.returnState = none := by
  obtain ⟨h1, h2, -, -⟩ := h
  cases hs : d.state <;> simp_all [AxisState.performs]

/-- A record in READY, MOVING, FINE or SETTLING with a target and neither fault code nor return state is consistent. -/
theorem Drive.consistent_of_target (ht : d.state.hasTarget = true) (hf : d.fault = none) (hr : d.returnState = none)
    (hg : d.target.isSome = true) (hm : d.midpoint.isSome = d.indexed) : d.Consistent := by
  cases hs : d.state <;> simp_all [AxisState.hasTarget] <;> exact ⟨by simp_all, by simp_all, by simp_all [AxisState.hasTarget], hm⟩

theorem Drive.moveTo_consistent (t : Int) (h : d.Consistent) (hf : d.fault = none) (hr : d.returnState = none) :
    (d.moveTo ax now t).Consistent := by
  unfold Drive.moveTo
  split <;> exact Drive.consistent_of_target rfl hf hr rfl h.midpoint_present

theorem Drive.move_consistent (t : Int) (h : d.Consistent) : (d.move ax now t).Consistent := by
  unfold Drive.move
  split
  · exact Drive.moveTo_consistent ax now _ h (h.performing ‹_›).1 (h.performing ‹_›).2
  · split
    · exact h.congr rfl rfl rfl rfl rfl rfl
    · exact h

theorem Drive.adjust_consistent (t : Int) (h : d.Consistent) : (d.adjust ax t).Consistent := by
  unfold Drive.adjust
  split
  · refine Drive.consistent_of_target ?_ (h.performing ‹_›).1 (h.performing ‹_›).2 rfl h.midpoint_present
    simp only
    split <;> rfl
  · exact h

theorem Drive.stop_consistent (h : d.Consistent) : (d.stop ax).Consistent := by
  unfold Drive.stop
  split
  · rename_i hm
    have hp : d.state.performs = true := by cases hs : d.state <;> simp_all [AxisState.inMotion, AxisState.performs]
    exact Drive.consistent_of_target rfl (h.performing hp).1 (h.performing hp).2 rfl h.midpoint_present
  · exact h

theorem Drive.seek_consistent (hm : d.midpoint.isSome = d.indexed) : (d.seek now).Consistent := ⟨rfl, rfl, rfl, hm⟩

theorem Drive.settle_consistent (hm : d.midpoint.isSome = d.indexed) : (d.settle ax now).Consistent :=
  ⟨rfl, rfl, rfl, hm⟩

theorem Drive.brake_consistent (ret : ReturnState) (hm : d.midpoint.isSome = d.indexed) : (d.brake ret).Consistent :=
  ⟨rfl, rfl, rfl, hm⟩

theorem Drive.takeFault_consistent (code : FaultCode) (h : d.Consistent) : (d.takeFault code).Consistent := by
  unfold Drive.takeFault
  split
  · exact h
  · exact ⟨rfl, rfl, rfl, h.midpoint_present⟩

theorem Drive.configure_consistent (offset : Int) (held : Bool) (h : d.Consistent) :
    (d.configure offset held now).Consistent := by
  unfold Drive.configure
  split
  · split
    · exact Drive.brake_consistent _ h.midpoint_present
    · exact Drive.seek_consistent _ h.midpoint_present
  · exact h.congr rfl rfl rfl rfl rfl rfl

theorem Drive.holdStart_consistent (h : d.Consistent) : d.holdStart.Consistent := by
  unfold Drive.holdStart
  split
  any_goals exact Drive.brake_consistent _ h.midpoint_present
  any_goals exact h
  exact ⟨rfl, rfl, rfl, h.midpoint_present⟩

theorem Drive.holdEnd_consistent (h : d.Consistent) : (d.holdEnd ax now).Consistent := by
  unfold Drive.holdEnd
  split
  · split
    · exact Drive.seek_consistent _ h.midpoint_present
    · exact Drive.settle_consistent _ _ h.midpoint_present
  · exact h

theorem Drive.clearFault_consistent (held : Bool) (h : d.Consistent) : (d.clearFault ax held now).Consistent := by
  unfold Drive.clearFault
  split
  · split
    · split
      · exact Drive.brake_consistent _ h.midpoint_present
      · exact Drive.settle_consistent _ _ h.midpoint_present
    · simp only
      split
      · exact Drive.brake_consistent _ rfl
      · exact Drive.seek_consistent _ rfl
  · exact h

theorem Drive.resetCommand_consistent (rest : Int) (h : d.Consistent) : (d.resetCommand ax now rest).Consistent := by
  unfold Drive.resetCommand
  split
  any_goals exact Drive.settle_consistent _ _ h.midpoint_present
  any_goals exact h
  exact h.congr rfl rfl rfl rfl rfl rfl

theorem Drive.arrive_consistent (h : d.Consistent) (hp : d.state.performs = true) : d.arrive.Consistent := by
  have ht := h.target_present
  refine Drive.consistent_of_target rfl (h.performing hp).1 (h.performing hp).2 ?_ h.midpoint_present
  cases hs : d.state <;> simp_all [AxisState.performs, AxisState.hasTarget, Drive.arrive]

theorem Drive.reverse_consistent (h : d.Consistent) : (d.reverse now).Consistent := h.congr rfl rfl rfl rfl rfl rfl

theorem Drive.endSettle_consistent (h : d.Consistent) (hs : d.state = .settling) : (d.endSettle ax now).Consistent := by
  obtain ⟨h1, h2, h3, h4⟩ := h
  rw [hs] at h1 h2 h3
  have hf : d.fault = none := by simpa using h1
  have hr : d.returnState = none := by simpa using h2
  have hc : ({ d with state := .ready, settleEnd := none, pendingTarget := none } : Drive).Consistent :=
    Drive.consistent_of_target rfl hf hr h3 h4
  unfold Drive.endSettle
  split
  · exact Drive.moveTo_consistent ax now _ hc hf hr
  · exact hc

theorem Drive.setIndex_consistent (mid : Int) : (d.setIndex ax mid now).Consistent :=
  Drive.settle_consistent ax now rfl

/-! ### Stillness in the hold -/

/-- The hold start leaves every drive still (R123). -/
theorem Drive.holdStart_still (d : Drive) : d.holdStart.state.stillInHold = true := by
  unfold Drive.holdStart
  split <;> simp_all [Drive.brake, AxisState.stillInHold]

theorem Drive.takeFault_still (code : FaultCode) (h : d.state.stillInHold = true) :
    (d.takeFault code).state.stillInHold = true := by
  unfold Drive.takeFault
  split
  · exact h
  · rfl

/-- A still drive performs no move, fine adjustment or stop (R106). -/
theorem Drive.move_still (t : Int) (h : d.state.stillInHold = true) : d.move ax now t = d := by
  unfold Drive.move
  cases hs : d.state <;> simp_all [AxisState.stillInHold, AxisState.performs]

theorem Drive.adjust_still (t : Int) (h : d.state.stillInHold = true) : d.adjust ax t = d := by
  unfold Drive.adjust
  cases hs : d.state <;> simp_all [AxisState.stillInHold, AxisState.performs]

theorem Drive.stop_still (h : d.state.stillInHold = true) : d.stop ax = d := by
  unfold Drive.stop
  cases hs : d.state <;> simp_all [AxisState.stillInHold, AxisState.inMotion]

end Sys2Proof.Machine
end

