-- ==== Sys2Proof/Laws/Frames.lean ====
section
/-! SUPPORT. What the operations on the whole State leave unchanged: one lemma for each operation and each field that it
never touches. A caller cites these and does not unfold the operation. -/

namespace Sys2Proof.Machine

open Sys2Proof

variable (s : State)

/-! ### `State.followLight` -/

@[simp] theorem State.followLight_clock : (s.followLight).clock = s.clock := by
  unfold State.followLight; repeat' split
  all_goals simp
@[simp] theorem State.followLight_fine : (s.followLight).fine = s.fine := by
  unfold State.followLight; repeat' split
  all_goals simp
@[simp] theorem State.followLight_setup : (s.followLight).setup = s.setup := by
  unfold State.followLight; repeat' split
  all_goals simp
@[simp] theorem State.followLight_table : (s.followLight).table = s.table := by
  unfold State.followLight; repeat' split
  all_goals simp
@[simp] theorem State.followLight_sectors : (s.followLight).sectors = s.sectors := by
  unfold State.followLight; repeat' split
  all_goals simp
@[simp] theorem State.followLight_decayDue : (s.followLight).decayDue = s.decayDue := by
  unfold State.followLight; repeat' split
  all_goals simp
@[simp] theorem State.followLight_forced : (s.followLight).forced = s.forced := by
  unfold State.followLight; repeat' split
  all_goals simp
@[simp] theorem State.followLight_engine : (s.followLight).engine = s.engine := by
  unfold State.followLight; repeat' split
  all_goals simp
@[simp] theorem State.followLight_hz : (s.followLight).hz = s.hz := by
  unfold State.followLight; repeat' split
  all_goals simp
@[simp] theorem State.followLight_vt : (s.followLight).vt = s.vt := by
  unfold State.followLight; repeat' split
  all_goals simp
@[simp] theorem State.followLight_axesReadyRaised : (s.followLight).axesReadyRaised = s.axesReadyRaised := by
  unfold State.followLight; repeat' split
  all_goals simp
@[simp] theorem State.followLight_config : (s.followLight).config = s.config := by
  unfold State.followLight; repeat' split
  all_goals simp
@[simp] theorem State.followLight_line : (s.followLight).line = s.line := by
  unfold State.followLight; repeat' split
  all_goals simp
@[simp] theorem State.followLight_peers : (s.followLight).peers = s.peers := by
  unfold State.followLight; repeat' split
  all_goals simp
@[simp] theorem State.followLight_link : (s.followLight).link = s.link := by
  unfold State.followLight; repeat' split
  all_goals simp
@[simp] theorem State.followLight_choices : (s.followLight).choices = s.choices := by
  unfold State.followLight; repeat' split
  all_goals simp
@[simp] theorem State.followLight_pending : (s.followLight).pending = s.pending := by
  unfold State.followLight; repeat' split
  all_goals simp

/-! ### `State.enter` -/

@[simp] theorem State.enter_clock (e : EngineState) : (s.enter e).clock = s.clock := by
  unfold State.enter; dsimp only; repeat' split
  all_goals simp
@[simp] theorem State.enter_fine (e : EngineState) : (s.enter e).fine = s.fine := by
  unfold State.enter; dsimp only; repeat' split
  all_goals simp
@[simp] theorem State.enter_setup (e : EngineState) : (s.enter e).setup = s.setup := by
  unfold State.enter; dsimp only; repeat' split
  all_goals simp
@[simp] theorem State.enter_table (e : EngineState) : (s.enter e).table = s.table := by
  unfold State.enter; dsimp only; repeat' split
  all_goals simp
@[simp] theorem State.enter_sectors (e : EngineState) : (s.enter e).sectors = s.sectors := by
  unfold State.enter; dsimp only; repeat' split
  all_goals simp
@[simp] theorem State.enter_decayDue (e : EngineState) : (s.enter e).decayDue = s.decayDue := by
  unfold State.enter; dsimp only; repeat' split
  all_goals simp
@[simp] theorem State.enter_forced (e : EngineState) : (s.enter e).forced = s.forced := by
  unfold State.enter; dsimp only; repeat' split
  all_goals simp
@[simp] theorem State.enter_hz (e : EngineState) : (s.enter e).hz = s.hz := by
  unfold State.enter; dsimp only; repeat' split
  all_goals simp
@[simp] theorem State.enter_vt (e : EngineState) : (s.enter e).vt = s.vt := by
  unfold State.enter; dsimp only; repeat' split
  all_goals simp
@[simp] theorem State.enter_axesReadyRaised (e : EngineState) : (s.enter e).axesReadyRaised = s.axesReadyRaised := by
  unfold State.enter; dsimp only; repeat' split
  all_goals simp
@[simp] theorem State.enter_config (e : EngineState) : (s.enter e).config = s.config := by
  unfold State.enter; dsimp only; repeat' split
  all_goals simp
@[simp] theorem State.enter_line (e : EngineState) : (s.enter e).line = s.line := by
  unfold State.enter; dsimp only; repeat' split
  all_goals simp
@[simp] theorem State.enter_peers (e : EngineState) : (s.enter e).peers = s.peers := by
  unfold State.enter; dsimp only; repeat' split
  all_goals simp
@[simp] theorem State.enter_link (e : EngineState) : (s.enter e).link = s.link := by
  unfold State.enter; dsimp only; repeat' split
  all_goals simp
@[simp] theorem State.enter_choices (e : EngineState) : (s.enter e).choices = s.choices := by
  unfold State.enter; dsimp only; repeat' split
  all_goals simp
@[simp] theorem State.enter_pending (e : EngineState) : (s.enter e).pending = s.pending := by
  unfold State.enter; dsimp only; repeat' split
  all_goals simp

/-! ### `State.beginDwell` -/

@[simp] theorem State.beginDwell_clock : (s.beginDwell).clock = s.clock := by
  unfold State.beginDwell; simp
@[simp] theorem State.beginDwell_fine : (s.beginDwell).fine = s.fine := by
  unfold State.beginDwell; simp
@[simp] theorem State.beginDwell_setup : (s.beginDwell).setup = s.setup := by
  unfold State.beginDwell; simp
@[simp] theorem State.beginDwell_table : (s.beginDwell).table = s.table := by
  unfold State.beginDwell; simp
@[simp] theorem State.beginDwell_sectors : (s.beginDwell).sectors = s.sectors := by
  unfold State.beginDwell; simp
@[simp] theorem State.beginDwell_decayDue : (s.beginDwell).decayDue = s.decayDue := by
  unfold State.beginDwell; simp
@[simp] theorem State.beginDwell_forced : (s.beginDwell).forced = s.forced := by
  unfold State.beginDwell; simp
@[simp] theorem State.beginDwell_hz : (s.beginDwell).hz = s.hz := by
  unfold State.beginDwell; simp
@[simp] theorem State.beginDwell_vt : (s.beginDwell).vt = s.vt := by
  unfold State.beginDwell; simp
@[simp] theorem State.beginDwell_axesReadyRaised : (s.beginDwell).axesReadyRaised = s.axesReadyRaised := by
  unfold State.beginDwell; simp
@[simp] theorem State.beginDwell_config : (s.beginDwell).config = s.config := by
  unfold State.beginDwell; simp
@[simp] theorem State.beginDwell_line : (s.beginDwell).line = s.line := by
  unfold State.beginDwell; simp
@[simp] theorem State.beginDwell_peers : (s.beginDwell).peers = s.peers := by
  unfold State.beginDwell; simp
@[simp] theorem State.beginDwell_link : (s.beginDwell).link = s.link := by
  unfold State.beginDwell; simp
@[simp] theorem State.beginDwell_choices : (s.beginDwell).choices = s.choices := by
  unfold State.beginDwell; simp
@[simp] theorem State.beginDwell_pending : (s.beginDwell).pending = s.pending := by
  unfold State.beginDwell; simp

/-! ### `State.offerFrame` -/

@[simp] theorem State.offerFrame_clock (f : Frame) : (s.offerFrame f).clock = s.clock := by
  unfold State.offerFrame; repeat' split
  all_goals simp
@[simp] theorem State.offerFrame_fine (f : Frame) : (s.offerFrame f).fine = s.fine := by
  unfold State.offerFrame; repeat' split
  all_goals simp
@[simp] theorem State.offerFrame_setup (f : Frame) : (s.offerFrame f).setup = s.setup := by
  unfold State.offerFrame; repeat' split
  all_goals simp
@[simp] theorem State.offerFrame_table (f : Frame) : (s.offerFrame f).table = s.table := by
  unfold State.offerFrame; repeat' split
  all_goals simp
@[simp] theorem State.offerFrame_sectors (f : Frame) : (s.offerFrame f).sectors = s.sectors := by
  unfold State.offerFrame; repeat' split
  all_goals simp
@[simp] theorem State.offerFrame_decayDue (f : Frame) : (s.offerFrame f).decayDue = s.decayDue := by
  unfold State.offerFrame; repeat' split
  all_goals simp
@[simp] theorem State.offerFrame_forced (f : Frame) : (s.offerFrame f).forced = s.forced := by
  unfold State.offerFrame; repeat' split
  all_goals simp
@[simp] theorem State.offerFrame_engine (f : Frame) : (s.offerFrame f).engine = s.engine := by
  unfold State.offerFrame; repeat' split
  all_goals simp
@[simp] theorem State.offerFrame_hz (f : Frame) : (s.offerFrame f).hz = s.hz := by
  unfold State.offerFrame; repeat' split
  all_goals simp
@[simp] theorem State.offerFrame_vt (f : Frame) : (s.offerFrame f).vt = s.vt := by
  unfold State.offerFrame; repeat' split
  all_goals simp
@[simp] theorem State.offerFrame_axesReadyRaised (f : Frame) :
    (s.offerFrame f).axesReadyRaised = s.axesReadyRaised := by
  unfold State.offerFrame; repeat' split
  all_goals simp
@[simp] theorem State.offerFrame_light (f : Frame) : (s.offerFrame f).light = s.light := by
  unfold State.offerFrame; repeat' split
  all_goals simp
@[simp] theorem State.offerFrame_config (f : Frame) : (s.offerFrame f).config = s.config := by
  unfold State.offerFrame; repeat' split
  all_goals simp
@[simp] theorem State.offerFrame_peers (f : Frame) : (s.offerFrame f).peers = s.peers := by
  unfold State.offerFrame; repeat' split
  all_goals simp
@[simp] theorem State.offerFrame_link (f : Frame) : (s.offerFrame f).link = s.link := by
  unfold State.offerFrame; repeat' split
  all_goals simp
@[simp] theorem State.offerFrame_choices (f : Frame) : (s.offerFrame f).choices = s.choices := by
  unfold State.offerFrame; repeat' split
  all_goals simp
@[simp] theorem State.offerFrame_pending (f : Frame) : (s.offerFrame f).pending = s.pending := by
  unfold State.offerFrame; repeat' split
  all_goals simp

/-! ### `State.requestBreak` -/

@[simp] theorem State.requestBreak_clock : (s.requestBreak).clock = s.clock := by
  unfold State.requestBreak; repeat' split
  all_goals simp
@[simp] theorem State.requestBreak_fine : (s.requestBreak).fine = s.fine := by
  unfold State.requestBreak; repeat' split
  all_goals simp
@[simp] theorem State.requestBreak_setup : (s.requestBreak).setup = s.setup := by
  unfold State.requestBreak; repeat' split
  all_goals simp
@[simp] theorem State.requestBreak_table : (s.requestBreak).table = s.table := by
  unfold State.requestBreak; repeat' split
  all_goals simp
@[simp] theorem State.requestBreak_sectors : (s.requestBreak).sectors = s.sectors := by
  unfold State.requestBreak; repeat' split
  all_goals simp
@[simp] theorem State.requestBreak_decayDue : (s.requestBreak).decayDue = s.decayDue := by
  unfold State.requestBreak; repeat' split
  all_goals simp
@[simp] theorem State.requestBreak_forced : (s.requestBreak).forced = s.forced := by
  unfold State.requestBreak; repeat' split
  all_goals simp
@[simp] theorem State.requestBreak_engine : (s.requestBreak).engine = s.engine := by
  unfold State.requestBreak; repeat' split
  all_goals simp
@[simp] theorem State.requestBreak_hz : (s.requestBreak).hz = s.hz := by
  unfold State.requestBreak; repeat' split
  all_goals simp
@[simp] theorem State.requestBreak_vt : (s.requestBreak).vt = s.vt := by
  unfold State.requestBreak; repeat' split
  all_goals simp
@[simp] theorem State.requestBreak_axesReadyRaised : (s.requestBreak).axesReadyRaised = s.axesReadyRaised := by
  unfold State.requestBreak; repeat' split
  all_goals simp
@[simp] theorem State.requestBreak_light : (s.requestBreak).light = s.light := by
  unfold State.requestBreak; repeat' split
  all_goals simp
@[simp] theorem State.requestBreak_config : (s.requestBreak).config = s.config := by
  unfold State.requestBreak; repeat' split
  all_goals simp
@[simp] theorem State.requestBreak_peers : (s.requestBreak).peers = s.peers := by
  unfold State.requestBreak; repeat' split
  all_goals simp
@[simp] theorem State.requestBreak_link : (s.requestBreak).link = s.link := by
  unfold State.requestBreak; repeat' split
  all_goals simp
@[simp] theorem State.requestBreak_choices : (s.requestBreak).choices = s.choices := by
  unfold State.requestBreak; repeat' split
  all_goals simp
@[simp] theorem State.requestBreak_pending : (s.requestBreak).pending = s.pending := by
  unfold State.requestBreak; repeat' split
  all_goals simp

/-! ### `State.giveObservation` -/

@[simp] theorem State.giveObservation_clock (o : Observation) : (s.giveObservation o).clock = s.clock := by
  unfold State.giveObservation; repeat' split
  all_goals simp
@[simp] theorem State.giveObservation_fine (o : Observation) : (s.giveObservation o).fine = s.fine := by
  unfold State.giveObservation; repeat' split
  all_goals simp
@[simp] theorem State.giveObservation_setup (o : Observation) : (s.giveObservation o).setup = s.setup := by
  unfold State.giveObservation; repeat' split
  all_goals simp
@[simp] theorem State.giveObservation_table (o : Observation) : (s.giveObservation o).table = s.table := by
  unfold State.giveObservation; repeat' split
  all_goals simp
@[simp] theorem State.giveObservation_sectors (o : Observation) : (s.giveObservation o).sectors = s.sectors := by
  unfold State.giveObservation; repeat' split
  all_goals simp
@[simp] theorem State.giveObservation_decayDue (o : Observation) : (s.giveObservation o).decayDue = s.decayDue := by
  unfold State.giveObservation; repeat' split
  all_goals simp
@[simp] theorem State.giveObservation_forced (o : Observation) : (s.giveObservation o).forced = s.forced := by
  unfold State.giveObservation; repeat' split
  all_goals simp
@[simp] theorem State.giveObservation_engine (o : Observation) : (s.giveObservation o).engine = s.engine := by
  unfold State.giveObservation; repeat' split
  all_goals simp
@[simp] theorem State.giveObservation_hz (o : Observation) : (s.giveObservation o).hz = s.hz := by
  unfold State.giveObservation; repeat' split
  all_goals simp
@[simp] theorem State.giveObservation_vt (o : Observation) : (s.giveObservation o).vt = s.vt := by
  unfold State.giveObservation; repeat' split
  all_goals simp
@[simp] theorem State.giveObservation_axesReadyRaised (o : Observation) :
    (s.giveObservation o).axesReadyRaised = s.axesReadyRaised := by
  unfold State.giveObservation; repeat' split
  all_goals simp
@[simp] theorem State.giveObservation_light (o : Observation) : (s.giveObservation o).light = s.light := by
  unfold State.giveObservation; repeat' split
  all_goals simp
@[simp] theorem State.giveObservation_config (o : Observation) : (s.giveObservation o).config = s.config := by
  unfold State.giveObservation; repeat' split
  all_goals simp
@[simp] theorem State.giveObservation_line (o : Observation) : (s.giveObservation o).line = s.line := by
  unfold State.giveObservation; repeat' split
  all_goals simp
@[simp] theorem State.giveObservation_peers (o : Observation) : (s.giveObservation o).peers = s.peers := by
  unfold State.giveObservation; repeat' split
  all_goals simp
@[simp] theorem State.giveObservation_choices (o : Observation) : (s.giveObservation o).choices = s.choices := by
  unfold State.giveObservation; repeat' split
  all_goals simp
@[simp] theorem State.giveObservation_pending (o : Observation) : (s.giveObservation o).pending = s.pending := by
  unfold State.giveObservation; repeat' split
  all_goals simp

/-! ### `State.offerOwnFix` -/

@[simp] theorem State.offerOwnFix_clock (p : Nat) (f : Fix) : (s.offerOwnFix p f).clock = s.clock := by
  unfold State.offerOwnFix; repeat' split
  all_goals simp
@[simp] theorem State.offerOwnFix_fine (p : Nat) (f : Fix) : (s.offerOwnFix p f).fine = s.fine := by
  unfold State.offerOwnFix; repeat' split
  all_goals simp
@[simp] theorem State.offerOwnFix_setup (p : Nat) (f : Fix) : (s.offerOwnFix p f).setup = s.setup := by
  unfold State.offerOwnFix; repeat' split
  all_goals simp
@[simp] theorem State.offerOwnFix_sectors (p : Nat) (f : Fix) : (s.offerOwnFix p f).sectors = s.sectors := by
  unfold State.offerOwnFix; repeat' split
  all_goals simp
@[simp] theorem State.offerOwnFix_decayDue (p : Nat) (f : Fix) : (s.offerOwnFix p f).decayDue = s.decayDue := by
  unfold State.offerOwnFix; repeat' split
  all_goals simp
@[simp] theorem State.offerOwnFix_forced (p : Nat) (f : Fix) : (s.offerOwnFix p f).forced = s.forced := by
  unfold State.offerOwnFix; repeat' split
  all_goals simp
@[simp] theorem State.offerOwnFix_engine (p : Nat) (f : Fix) : (s.offerOwnFix p f).engine = s.engine := by
  unfold State.offerOwnFix; repeat' split
  all_goals simp
@[simp] theorem State.offerOwnFix_hz (p : Nat) (f : Fix) : (s.offerOwnFix p f).hz = s.hz := by
  unfold State.offerOwnFix; repeat' split
  all_goals simp
@[simp] theorem State.offerOwnFix_vt (p : Nat) (f : Fix) : (s.offerOwnFix p f).vt = s.vt := by
  unfold State.offerOwnFix; repeat' split
  all_goals simp
@[simp] theorem State.offerOwnFix_axesReadyRaised (p : Nat) (f : Fix) :
    (s.offerOwnFix p f).axesReadyRaised = s.axesReadyRaised := by
  unfold State.offerOwnFix; repeat' split
  all_goals simp
@[simp] theorem State.offerOwnFix_light (p : Nat) (f : Fix) : (s.offerOwnFix p f).light = s.light := by
  unfold State.offerOwnFix; repeat' split
  all_goals simp
@[simp] theorem State.offerOwnFix_config (p : Nat) (f : Fix) : (s.offerOwnFix p f).config = s.config := by
  unfold State.offerOwnFix; repeat' split
  all_goals simp
@[simp] theorem State.offerOwnFix_peers (p : Nat) (f : Fix) : (s.offerOwnFix p f).peers = s.peers := by
  unfold State.offerOwnFix; repeat' split
  all_goals simp
@[simp] theorem State.offerOwnFix_link (p : Nat) (f : Fix) : (s.offerOwnFix p f).link = s.link := by
  unfold State.offerOwnFix; repeat' split
  all_goals simp
@[simp] theorem State.offerOwnFix_choices (p : Nat) (f : Fix) : (s.offerOwnFix p f).choices = s.choices := by
  unfold State.offerOwnFix; repeat' split
  all_goals simp
@[simp] theorem State.offerOwnFix_pending (p : Nat) (f : Fix) : (s.offerOwnFix p f).pending = s.pending := by
  unfold State.offerOwnFix; repeat' split
  all_goals simp

/-! ### `State.dropOpen` -/

@[simp] theorem State.dropOpen_clock : (s.dropOpen).clock = s.clock := by
  unfold State.dropOpen; simp
@[simp] theorem State.dropOpen_fine : (s.dropOpen).fine = s.fine := by
  unfold State.dropOpen; simp
@[simp] theorem State.dropOpen_setup : (s.dropOpen).setup = s.setup := by
  unfold State.dropOpen; simp
@[simp] theorem State.dropOpen_table : (s.dropOpen).table = s.table := by
  unfold State.dropOpen; simp
@[simp] theorem State.dropOpen_sectors : (s.dropOpen).sectors = s.sectors := by
  unfold State.dropOpen; simp
@[simp] theorem State.dropOpen_decayDue : (s.dropOpen).decayDue = s.decayDue := by
  unfold State.dropOpen; simp
@[simp] theorem State.dropOpen_forced : (s.dropOpen).forced = s.forced := by
  unfold State.dropOpen; simp
@[simp] theorem State.dropOpen_hz : (s.dropOpen).hz = s.hz := by
  unfold State.dropOpen; simp
@[simp] theorem State.dropOpen_vt : (s.dropOpen).vt = s.vt := by
  unfold State.dropOpen; simp
@[simp] theorem State.dropOpen_axesReadyRaised : (s.dropOpen).axesReadyRaised = s.axesReadyRaised := by
  unfold State.dropOpen; simp
@[simp] theorem State.dropOpen_light : (s.dropOpen).light = s.light := by
  unfold State.dropOpen; simp
@[simp] theorem State.dropOpen_config : (s.dropOpen).config = s.config := by
  unfold State.dropOpen; simp
@[simp] theorem State.dropOpen_line : (s.dropOpen).line = s.line := by
  unfold State.dropOpen; simp
@[simp] theorem State.dropOpen_peers : (s.dropOpen).peers = s.peers := by
  unfold State.dropOpen; simp
@[simp] theorem State.dropOpen_link : (s.dropOpen).link = s.link := by
  unfold State.dropOpen; simp
@[simp] theorem State.dropOpen_choices : (s.dropOpen).choices = s.choices := by
  unfold State.dropOpen; simp
@[simp] theorem State.dropOpen_pending : (s.dropOpen).pending = s.pending := by
  unfold State.dropOpen; simp

/-! ### `State.offerClosedFix` -/

@[simp] theorem State.offerClosedFix_clock (o : OpenObs) (c : Closing) (g : Option Grid) :
    (s.offerClosedFix o c g).clock = s.clock := by
  unfold State.offerClosedFix; repeat' split
  all_goals simp
@[simp] theorem State.offerClosedFix_fine (o : OpenObs) (c : Closing) (g : Option Grid) :
    (s.offerClosedFix o c g).fine = s.fine := by
  unfold State.offerClosedFix; repeat' split
  all_goals simp
@[simp] theorem State.offerClosedFix_setup (o : OpenObs) (c : Closing) (g : Option Grid) :
    (s.offerClosedFix o c g).setup = s.setup := by
  unfold State.offerClosedFix; repeat' split
  all_goals simp
@[simp] theorem State.offerClosedFix_sectors (o : OpenObs) (c : Closing) (g : Option Grid) :
    (s.offerClosedFix o c g).sectors = s.sectors := by
  unfold State.offerClosedFix; repeat' split
  all_goals simp
@[simp] theorem State.offerClosedFix_decayDue (o : OpenObs) (c : Closing) (g : Option Grid) :
    (s.offerClosedFix o c g).decayDue = s.decayDue := by
  unfold State.offerClosedFix; repeat' split
  all_goals simp
@[simp] theorem State.offerClosedFix_forced (o : OpenObs) (c : Closing) (g : Option Grid) :
    (s.offerClosedFix o c g).forced = s.forced := by
  unfold State.offerClosedFix; repeat' split
  all_goals simp
@[simp] theorem State.offerClosedFix_engine (o : OpenObs) (c : Closing) (g : Option Grid) :
    (s.offerClosedFix o c g).engine = s.engine := by
  unfold State.offerClosedFix; repeat' split
  all_goals simp
@[simp] theorem State.offerClosedFix_hz (o : OpenObs) (c : Closing) (g : Option Grid) :
    (s.offerClosedFix o c g).hz = s.hz := by
  unfold State.offerClosedFix; repeat' split
  all_goals simp
@[simp] theorem State.offerClosedFix_vt (o : OpenObs) (c : Closing) (g : Option Grid) :
    (s.offerClosedFix o c g).vt = s.vt := by
  unfold State.offerClosedFix; repeat' split
  all_goals simp
@[simp] theorem State.offerClosedFix_axesReadyRaised (o : OpenObs) (c : Closing) (g : Option Grid) :
    (s.offerClosedFix o c g).axesReadyRaised = s.axesReadyRaised := by
  unfold State.offerClosedFix; repeat' split
  all_goals simp
@[simp] theorem State.offerClosedFix_light (o : OpenObs) (c : Closing) (g : Option Grid) :
    (s.offerClosedFix o c g).light = s.light := by
  unfold State.offerClosedFix; repeat' split
  all_goals simp
@[simp] theorem State.offerClosedFix_config (o : OpenObs) (c : Closing) (g : Option Grid) :
    (s.offerClosedFix o c g).config = s.config := by
  unfold State.offerClosedFix; repeat' split
  all_goals simp
@[simp] theorem State.offerClosedFix_peers (o : OpenObs) (c : Closing) (g : Option Grid) :
    (s.offerClosedFix o c g).peers = s.peers := by
  unfold State.offerClosedFix; repeat' split
  all_goals simp
@[simp] theorem State.offerClosedFix_link (o : OpenObs) (c : Closing) (g : Option Grid) :
    (s.offerClosedFix o c g).link = s.link := by
  unfold State.offerClosedFix; repeat' split
  all_goals simp
@[simp] theorem State.offerClosedFix_choices (o : OpenObs) (c : Closing) (g : Option Grid) :
    (s.offerClosedFix o c g).choices = s.choices := by
  unfold State.offerClosedFix; repeat' split
  all_goals simp
@[simp] theorem State.offerClosedFix_pending (o : OpenObs) (c : Closing) (g : Option Grid) :
    (s.offerClosedFix o c g).pending = s.pending := by
  unfold State.offerClosedFix; repeat' split
  all_goals simp

/-! ### `State.closeObservation` -/

@[simp] theorem State.closeObservation_clock (r : Option Nat) (b : Bool) :
    (s.closeObservation r b).clock = s.clock := by
  unfold State.closeObservation; dsimp only; repeat' split
  all_goals simp
@[simp] theorem State.closeObservation_fine (r : Option Nat) (b : Bool) : (s.closeObservation r b).fine = s.fine := by
  unfold State.closeObservation; dsimp only; repeat' split
  all_goals simp
@[simp] theorem State.closeObservation_setup (r : Option Nat) (b : Bool) :
    (s.closeObservation r b).setup = s.setup := by
  unfold State.closeObservation; dsimp only; repeat' split
  all_goals simp
@[simp] theorem State.closeObservation_sectors (r : Option Nat) (b : Bool) :
    (s.closeObservation r b).sectors = s.sectors := by
  unfold State.closeObservation; dsimp only; repeat' split
  all_goals simp
@[simp] theorem State.closeObservation_decayDue (r : Option Nat) (b : Bool) :
    (s.closeObservation r b).decayDue = s.decayDue := by
  unfold State.closeObservation; dsimp only; repeat' split
  all_goals simp
@[simp] theorem State.closeObservation_forced (r : Option Nat) (b : Bool) :
    (s.closeObservation r b).forced = s.forced := by
  unfold State.closeObservation; dsimp only; repeat' split
  all_goals simp
@[simp] theorem State.closeObservation_hz (r : Option Nat) (b : Bool) : (s.closeObservation r b).hz = s.hz := by
  unfold State.closeObservation; dsimp only; repeat' split
  all_goals simp
@[simp] theorem State.closeObservation_vt (r : Option Nat) (b : Bool) : (s.closeObservation r b).vt = s.vt := by
  unfold State.closeObservation; dsimp only; repeat' split
  all_goals simp
@[simp] theorem State.closeObservation_axesReadyRaised (r : Option Nat) (b : Bool) :
    (s.closeObservation r b).axesReadyRaised = s.axesReadyRaised := by
  unfold State.closeObservation; dsimp only; repeat' split
  all_goals simp
@[simp] theorem State.closeObservation_light (r : Option Nat) (b : Bool) :
    (s.closeObservation r b).light = s.light := by
  unfold State.closeObservation; dsimp only; repeat' split
  all_goals simp
@[simp] theorem State.closeObservation_config (r : Option Nat) (b : Bool) :
    (s.closeObservation r b).config = s.config := by
  unfold State.closeObservation; dsimp only; repeat' split
  all_goals simp
@[simp] theorem State.closeObservation_peers (r : Option Nat) (b : Bool) :
    (s.closeObservation r b).peers = s.peers := by
  unfold State.closeObservation; dsimp only; repeat' split
  all_goals simp
@[simp] theorem State.closeObservation_choices (r : Option Nat) (b : Bool) :
    (s.closeObservation r b).choices = s.choices := by
  unfold State.closeObservation; dsimp only; repeat' split
  all_goals simp
@[simp] theorem State.closeObservation_pending (r : Option Nat) (b : Bool) :
    (s.closeObservation r b).pending = s.pending := by
  unfold State.closeObservation; dsimp only; repeat' split
  all_goals simp

/-! ### `State.openObservation` -/

@[simp] theorem State.openObservation_clock (k : ObsKind) (x : Angles) : (s.openObservation k x).clock = s.clock := by
  unfold State.openObservation; repeat' split
  all_goals simp
@[simp] theorem State.openObservation_fine (k : ObsKind) (x : Angles) : (s.openObservation k x).fine = s.fine := by
  unfold State.openObservation; repeat' split
  all_goals simp
@[simp] theorem State.openObservation_setup (k : ObsKind) (x : Angles) : (s.openObservation k x).setup = s.setup := by
  unfold State.openObservation; repeat' split
  all_goals simp
@[simp] theorem State.openObservation_table (k : ObsKind) (x : Angles) : (s.openObservation k x).table = s.table := by
  unfold State.openObservation; repeat' split
  all_goals simp
@[simp] theorem State.openObservation_sectors (k : ObsKind) (x : Angles) :
    (s.openObservation k x).sectors = s.sectors := by
  unfold State.openObservation; repeat' split
  all_goals simp
@[simp] theorem State.openObservation_decayDue (k : ObsKind) (x : Angles) :
    (s.openObservation k x).decayDue = s.decayDue := by
  unfold State.openObservation; repeat' split
  all_goals simp
@[simp] theorem State.openObservation_forced (k : ObsKind) (x : Angles) :
    (s.openObservation k x).forced = s.forced := by
  unfold State.openObservation; repeat' split
  all_goals simp
@[simp] theorem State.openObservation_hz (k : ObsKind) (x : Angles) : (s.openObservation k x).hz = s.hz := by
  unfold State.openObservation; repeat' split
  all_goals simp
@[simp] theorem State.openObservation_vt (k : ObsKind) (x : Angles) : (s.openObservation k x).vt = s.vt := by
  unfold State.openObservation; repeat' split
  all_goals simp
@[simp] theorem State.openObservation_axesReadyRaised (k : ObsKind) (x : Angles) :
    (s.openObservation k x).axesReadyRaised = s.axesReadyRaised := by
  unfold State.openObservation; repeat' split
  all_goals simp
@[simp] theorem State.openObservation_light (k : ObsKind) (x : Angles) : (s.openObservation k x).light = s.light := by
  unfold State.openObservation; repeat' split
  all_goals simp
@[simp] theorem State.openObservation_config (k : ObsKind) (x : Angles) :
    (s.openObservation k x).config = s.config := by
  unfold State.openObservation; repeat' split
  all_goals simp
@[simp] theorem State.openObservation_line (k : ObsKind) (x : Angles) : (s.openObservation k x).line = s.line := by
  unfold State.openObservation; repeat' split
  all_goals simp
@[simp] theorem State.openObservation_peers (k : ObsKind) (x : Angles) : (s.openObservation k x).peers = s.peers := by
  unfold State.openObservation; repeat' split
  all_goals simp
@[simp] theorem State.openObservation_link (k : ObsKind) (x : Angles) : (s.openObservation k x).link = s.link := by
  unfold State.openObservation; repeat' split
  all_goals simp
@[simp] theorem State.openObservation_choices (k : ObsKind) (x : Angles) :
    (s.openObservation k x).choices = s.choices := by
  unfold State.openObservation; repeat' split
  all_goals simp
@[simp] theorem State.openObservation_pending (k : ObsKind) (x : Angles) :
    (s.openObservation k x).pending = s.pending := by
  unfold State.openObservation; repeat' split
  all_goals simp

/-! ### `State.chanceObservation` -/

@[simp] theorem State.chanceObservation_clock (c : Nat) (x : Angles) : (s.chanceObservation c x).clock = s.clock := by
  unfold State.chanceObservation; repeat' split
  all_goals simp
@[simp] theorem State.chanceObservation_fine (c : Nat) (x : Angles) : (s.chanceObservation c x).fine = s.fine := by
  unfold State.chanceObservation; repeat' split
  all_goals simp
@[simp] theorem State.chanceObservation_setup (c : Nat) (x : Angles) : (s.chanceObservation c x).setup = s.setup := by
  unfold State.chanceObservation; repeat' split
  all_goals simp
@[simp] theorem State.chanceObservation_table (c : Nat) (x : Angles) : (s.chanceObservation c x).table = s.table := by
  unfold State.chanceObservation; repeat' split
  all_goals simp
@[simp] theorem State.chanceObservation_sectors (c : Nat) (x : Angles) :
    (s.chanceObservation c x).sectors = s.sectors := by
  unfold State.chanceObservation; repeat' split
  all_goals simp
@[simp] theorem State.chanceObservation_decayDue (c : Nat) (x : Angles) :
    (s.chanceObservation c x).decayDue = s.decayDue := by
  unfold State.chanceObservation; repeat' split
  all_goals simp
@[simp] theorem State.chanceObservation_forced (c : Nat) (x : Angles) :
    (s.chanceObservation c x).forced = s.forced := by
  unfold State.chanceObservation; repeat' split
  all_goals simp
@[simp] theorem State.chanceObservation_hz (c : Nat) (x : Angles) : (s.chanceObservation c x).hz = s.hz := by
  unfold State.chanceObservation; repeat' split
  all_goals simp
@[simp] theorem State.chanceObservation_vt (c : Nat) (x : Angles) : (s.chanceObservation c x).vt = s.vt := by
  unfold State.chanceObservation; repeat' split
  all_goals simp
@[simp] theorem State.chanceObservation_axesReadyRaised (c : Nat) (x : Angles) :
    (s.chanceObservation c x).axesReadyRaised = s.axesReadyRaised := by
  unfold State.chanceObservation; repeat' split
  all_goals simp
@[simp] theorem State.chanceObservation_light (c : Nat) (x : Angles) : (s.chanceObservation c x).light = s.light := by
  unfold State.chanceObservation; repeat' split
  all_goals simp
@[simp] theorem State.chanceObservation_config (c : Nat) (x : Angles) :
    (s.chanceObservation c x).config = s.config := by
  unfold State.chanceObservation; repeat' split
  all_goals simp
@[simp] theorem State.chanceObservation_line (c : Nat) (x : Angles) : (s.chanceObservation c x).line = s.line := by
  unfold State.chanceObservation; repeat' split
  all_goals simp
@[simp] theorem State.chanceObservation_peers (c : Nat) (x : Angles) : (s.chanceObservation c x).peers = s.peers := by
  unfold State.chanceObservation; repeat' split
  all_goals simp
@[simp] theorem State.chanceObservation_choices (c : Nat) (x : Angles) :
    (s.chanceObservation c x).choices = s.choices := by
  unfold State.chanceObservation; repeat' split
  all_goals simp
@[simp] theorem State.chanceObservation_pending (c : Nat) (x : Angles) :
    (s.chanceObservation c x).pending = s.pending := by
  unfold State.chanceObservation; repeat' split
  all_goals simp

/-! ### `State.stopAxis` -/

@[simp] theorem State.stopAxis_clock (ax : Axis) : (s.stopAxis ax).clock = s.clock := by
  unfold State.stopAxis; simp
@[simp] theorem State.stopAxis_fine (ax : Axis) : (s.stopAxis ax).fine = s.fine := by
  unfold State.stopAxis; simp
@[simp] theorem State.stopAxis_setup (ax : Axis) : (s.stopAxis ax).setup = s.setup := by
  unfold State.stopAxis; simp
@[simp] theorem State.stopAxis_table (ax : Axis) : (s.stopAxis ax).table = s.table := by
  unfold State.stopAxis; simp
@[simp] theorem State.stopAxis_sectors (ax : Axis) : (s.stopAxis ax).sectors = s.sectors := by
  unfold State.stopAxis; simp
@[simp] theorem State.stopAxis_decayDue (ax : Axis) : (s.stopAxis ax).decayDue = s.decayDue := by
  unfold State.stopAxis; simp
@[simp] theorem State.stopAxis_forced (ax : Axis) : (s.stopAxis ax).forced = s.forced := by
  unfold State.stopAxis; simp
@[simp] theorem State.stopAxis_engine (ax : Axis) : (s.stopAxis ax).engine = s.engine := by
  unfold State.stopAxis; simp
@[simp] theorem State.stopAxis_axesReadyRaised (ax : Axis) : (s.stopAxis ax).axesReadyRaised = s.axesReadyRaised := by
  unfold State.stopAxis; simp
@[simp] theorem State.stopAxis_light (ax : Axis) : (s.stopAxis ax).light = s.light := by
  unfold State.stopAxis; simp
@[simp] theorem State.stopAxis_config (ax : Axis) : (s.stopAxis ax).config = s.config := by
  unfold State.stopAxis; simp
@[simp] theorem State.stopAxis_line (ax : Axis) : (s.stopAxis ax).line = s.line := by
  unfold State.stopAxis; simp
@[simp] theorem State.stopAxis_peers (ax : Axis) : (s.stopAxis ax).peers = s.peers := by
  unfold State.stopAxis; simp
@[simp] theorem State.stopAxis_link (ax : Axis) : (s.stopAxis ax).link = s.link := by
  unfold State.stopAxis; simp
@[simp] theorem State.stopAxis_choices (ax : Axis) : (s.stopAxis ax).choices = s.choices := by
  unfold State.stopAxis; simp
@[simp] theorem State.stopAxis_pending (ax : Axis) : (s.stopAxis ax).pending = s.pending := by
  unfold State.stopAxis; simp

/-! ### `State.stopAxes` -/

@[simp] theorem State.stopAxes_clock : (s.stopAxes).clock = s.clock := by
  unfold State.stopAxes; simp
@[simp] theorem State.stopAxes_fine : (s.stopAxes).fine = s.fine := by
  unfold State.stopAxes; simp
@[simp] theorem State.stopAxes_setup : (s.stopAxes).setup = s.setup := by
  unfold State.stopAxes; simp
@[simp] theorem State.stopAxes_table : (s.stopAxes).table = s.table := by
  unfold State.stopAxes; simp
@[simp] theorem State.stopAxes_sectors : (s.stopAxes).sectors = s.sectors := by
  unfold State.stopAxes; simp
@[simp] theorem State.stopAxes_decayDue : (s.stopAxes).decayDue = s.decayDue := by
  unfold State.stopAxes; simp
@[simp] theorem State.stopAxes_forced : (s.stopAxes).forced = s.forced := by
  unfold State.stopAxes; simp
@[simp] theorem State.stopAxes_engine : (s.stopAxes).engine = s.engine := by
  unfold State.stopAxes; simp
@[simp] theorem State.stopAxes_axesReadyRaised : (s.stopAxes).axesReadyRaised = s.axesReadyRaised := by
  unfold State.stopAxes; simp
@[simp] theorem State.stopAxes_light : (s.stopAxes).light = s.light := by
  unfold State.stopAxes; simp
@[simp] theorem State.stopAxes_config : (s.stopAxes).config = s.config := by
  unfold State.stopAxes; simp
@[simp] theorem State.stopAxes_line : (s.stopAxes).line = s.line := by
  unfold State.stopAxes; simp
@[simp] theorem State.stopAxes_peers : (s.stopAxes).peers = s.peers := by
  unfold State.stopAxes; simp
@[simp] theorem State.stopAxes_link : (s.stopAxes).link = s.link := by
  unfold State.stopAxes; simp
@[simp] theorem State.stopAxes_choices : (s.stopAxes).choices = s.choices := by
  unfold State.stopAxes; simp
@[simp] theorem State.stopAxes_pending : (s.stopAxes).pending = s.pending := by
  unfold State.stopAxes; simp

/-! ### `State.writeOutcome` -/

@[simp] theorem State.writeOutcome_clock (o : AimOutcome) (t : Option Nat) (a : Aim) :
    (s.writeOutcome o t a).clock = s.clock := by
  unfold State.writeOutcome; repeat' split
  all_goals simp
@[simp] theorem State.writeOutcome_fine (o : AimOutcome) (t : Option Nat) (a : Aim) :
    (s.writeOutcome o t a).fine = s.fine := by
  unfold State.writeOutcome; repeat' split
  all_goals simp
@[simp] theorem State.writeOutcome_setup (o : AimOutcome) (t : Option Nat) (a : Aim) :
    (s.writeOutcome o t a).setup = s.setup := by
  unfold State.writeOutcome; repeat' split
  all_goals simp
@[simp] theorem State.writeOutcome_sectors (o : AimOutcome) (t : Option Nat) (a : Aim) :
    (s.writeOutcome o t a).sectors = s.sectors := by
  unfold State.writeOutcome; repeat' split
  all_goals simp
@[simp] theorem State.writeOutcome_decayDue (o : AimOutcome) (t : Option Nat) (a : Aim) :
    (s.writeOutcome o t a).decayDue = s.decayDue := by
  unfold State.writeOutcome; repeat' split
  all_goals simp
@[simp] theorem State.writeOutcome_forced (o : AimOutcome) (t : Option Nat) (a : Aim) :
    (s.writeOutcome o t a).forced = s.forced := by
  unfold State.writeOutcome; repeat' split
  all_goals simp
@[simp] theorem State.writeOutcome_engine (o : AimOutcome) (t : Option Nat) (a : Aim) :
    (s.writeOutcome o t a).engine = s.engine := by
  unfold State.writeOutcome; repeat' split
  all_goals simp
@[simp] theorem State.writeOutcome_hz (o : AimOutcome) (t : Option Nat) (a : Aim) :
    (s.writeOutcome o t a).hz = s.hz := by
  unfold State.writeOutcome; repeat' split
  all_goals simp
@[simp] theorem State.writeOutcome_vt (o : AimOutcome) (t : Option Nat) (a : Aim) :
    (s.writeOutcome o t a).vt = s.vt := by
  unfold State.writeOutcome; repeat' split
  all_goals simp
@[simp] theorem State.writeOutcome_axesReadyRaised (o : AimOutcome) (t : Option Nat) (a : Aim) :
    (s.writeOutcome o t a).axesReadyRaised = s.axesReadyRaised := by
  unfold State.writeOutcome; repeat' split
  all_goals simp
@[simp] theorem State.writeOutcome_light (o : AimOutcome) (t : Option Nat) (a : Aim) :
    (s.writeOutcome o t a).light = s.light := by
  unfold State.writeOutcome; repeat' split
  all_goals simp
@[simp] theorem State.writeOutcome_config (o : AimOutcome) (t : Option Nat) (a : Aim) :
    (s.writeOutcome o t a).config = s.config := by
  unfold State.writeOutcome; repeat' split
  all_goals simp
@[simp] theorem State.writeOutcome_line (o : AimOutcome) (t : Option Nat) (a : Aim) :
    (s.writeOutcome o t a).line = s.line := by
  unfold State.writeOutcome; repeat' split
  all_goals simp
@[simp] theorem State.writeOutcome_peers (o : AimOutcome) (t : Option Nat) (a : Aim) :
    (s.writeOutcome o t a).peers = s.peers := by
  unfold State.writeOutcome; repeat' split
  all_goals simp
@[simp] theorem State.writeOutcome_choices (o : AimOutcome) (t : Option Nat) (a : Aim) :
    (s.writeOutcome o t a).choices = s.choices := by
  unfold State.writeOutcome; repeat' split
  all_goals simp
@[simp] theorem State.writeOutcome_pending (o : AimOutcome) (t : Option Nat) (a : Aim) :
    (s.writeOutcome o t a).pending = s.pending := by
  unfold State.writeOutcome; repeat' split
  all_goals simp

/-! ### `State.writeBlock` -/

@[simp] theorem State.writeBlock_clock (o : AimOutcome) (a : Aim) : (s.writeBlock o a).clock = s.clock := by
  unfold State.writeBlock; repeat' split
  all_goals simp
@[simp] theorem State.writeBlock_fine (o : AimOutcome) (a : Aim) : (s.writeBlock o a).fine = s.fine := by
  unfold State.writeBlock; repeat' split
  all_goals simp
@[simp] theorem State.writeBlock_setup (o : AimOutcome) (a : Aim) : (s.writeBlock o a).setup = s.setup := by
  unfold State.writeBlock; repeat' split
  all_goals simp
@[simp] theorem State.writeBlock_table (o : AimOutcome) (a : Aim) : (s.writeBlock o a).table = s.table := by
  unfold State.writeBlock; repeat' split
  all_goals simp
@[simp] theorem State.writeBlock_decayDue (o : AimOutcome) (a : Aim) : (s.writeBlock o a).decayDue = s.decayDue := by
  unfold State.writeBlock; repeat' split
  all_goals simp
@[simp] theorem State.writeBlock_forced (o : AimOutcome) (a : Aim) : (s.writeBlock o a).forced = s.forced := by
  unfold State.writeBlock; repeat' split
  all_goals simp
@[simp] theorem State.writeBlock_engine (o : AimOutcome) (a : Aim) : (s.writeBlock o a).engine = s.engine := by
  unfold State.writeBlock; repeat' split
  all_goals simp
@[simp] theorem State.writeBlock_hz (o : AimOutcome) (a : Aim) : (s.writeBlock o a).hz = s.hz := by
  unfold State.writeBlock; repeat' split
  all_goals simp
@[simp] theorem State.writeBlock_vt (o : AimOutcome) (a : Aim) : (s.writeBlock o a).vt = s.vt := by
  unfold State.writeBlock; repeat' split
  all_goals simp
@[simp] theorem State.writeBlock_axesReadyRaised (o : AimOutcome) (a : Aim) :
    (s.writeBlock o a).axesReadyRaised = s.axesReadyRaised := by
  unfold State.writeBlock; repeat' split
  all_goals simp
@[simp] theorem State.writeBlock_light (o : AimOutcome) (a : Aim) : (s.writeBlock o a).light = s.light := by
  unfold State.writeBlock; repeat' split
  all_goals simp
@[simp] theorem State.writeBlock_config (o : AimOutcome) (a : Aim) : (s.writeBlock o a).config = s.config := by
  unfold State.writeBlock; repeat' split
  all_goals simp
@[simp] theorem State.writeBlock_line (o : AimOutcome) (a : Aim) : (s.writeBlock o a).line = s.line := by
  unfold State.writeBlock; repeat' split
  all_goals simp
@[simp] theorem State.writeBlock_peers (o : AimOutcome) (a : Aim) : (s.writeBlock o a).peers = s.peers := by
  unfold State.writeBlock; repeat' split
  all_goals simp
@[simp] theorem State.writeBlock_link (o : AimOutcome) (a : Aim) : (s.writeBlock o a).link = s.link := by
  unfold State.writeBlock; repeat' split
  all_goals simp
@[simp] theorem State.writeBlock_choices (o : AimOutcome) (a : Aim) : (s.writeBlock o a).choices = s.choices := by
  unfold State.writeBlock; repeat' split
  all_goals simp
@[simp] theorem State.writeBlock_pending (o : AimOutcome) (a : Aim) : (s.writeBlock o a).pending = s.pending := by
  unfold State.writeBlock; repeat' split
  all_goals simp

/-! ### `State.finishAim` -/

@[simp] theorem State.finishAim_clock (o : AimOutcome) (t : Option Nat) : (s.finishAim o t).clock = s.clock := by
  unfold State.finishAim; dsimp only; repeat' split
  all_goals simp
@[simp] theorem State.finishAim_fine (o : AimOutcome) (t : Option Nat) : (s.finishAim o t).fine = s.fine := by
  unfold State.finishAim; dsimp only; repeat' split
  all_goals simp
@[simp] theorem State.finishAim_setup (o : AimOutcome) (t : Option Nat) : (s.finishAim o t).setup = s.setup := by
  unfold State.finishAim; dsimp only; repeat' split
  all_goals simp
@[simp] theorem State.finishAim_decayDue (o : AimOutcome) (t : Option Nat) :
    (s.finishAim o t).decayDue = s.decayDue := by
  unfold State.finishAim; dsimp only; repeat' split
  all_goals simp
@[simp] theorem State.finishAim_forced (o : AimOutcome) (t : Option Nat) : (s.finishAim o t).forced = s.forced := by
  unfold State.finishAim; dsimp only; repeat' split
  all_goals simp
@[simp] theorem State.finishAim_hz (o : AimOutcome) (t : Option Nat) : (s.finishAim o t).hz = s.hz := by
  unfold State.finishAim; dsimp only; repeat' split
  all_goals simp
@[simp] theorem State.finishAim_vt (o : AimOutcome) (t : Option Nat) : (s.finishAim o t).vt = s.vt := by
  unfold State.finishAim; dsimp only; repeat' split
  all_goals simp
@[simp] theorem State.finishAim_axesReadyRaised (o : AimOutcome) (t : Option Nat) :
    (s.finishAim o t).axesReadyRaised = s.axesReadyRaised := by
  unfold State.finishAim; dsimp only; repeat' split
  all_goals simp
@[simp] theorem State.finishAim_light (o : AimOutcome) (t : Option Nat) : (s.finishAim o t).light = s.light := by
  unfold State.finishAim; dsimp only; repeat' split
  all_goals simp
@[simp] theorem State.finishAim_config (o : AimOutcome) (t : Option Nat) : (s.finishAim o t).config = s.config := by
  unfold State.finishAim; dsimp only; repeat' split
  all_goals simp
@[simp] theorem State.finishAim_peers (o : AimOutcome) (t : Option Nat) : (s.finishAim o t).peers = s.peers := by
  unfold State.finishAim; dsimp only; repeat' split
  all_goals simp
@[simp] theorem State.finishAim_choices (o : AimOutcome) (t : Option Nat) : (s.finishAim o t).choices = s.choices := by
  unfold State.finishAim; dsimp only; repeat' split
  all_goals simp
@[simp] theorem State.finishAim_pending (o : AimOutcome) (t : Option Nat) : (s.finishAim o t).pending = s.pending := by
  unfold State.finishAim; dsimp only; repeat' split
  all_goals simp

/-! ### `State.moveAxes` -/

@[simp] theorem State.moveAxes_clock (x : Angles) : (s.moveAxes x).clock = s.clock := by
  unfold State.moveAxes; simp
@[simp] theorem State.moveAxes_fine (x : Angles) : (s.moveAxes x).fine = s.fine := by
  unfold State.moveAxes; simp
@[simp] theorem State.moveAxes_setup (x : Angles) : (s.moveAxes x).setup = s.setup := by
  unfold State.moveAxes; simp
@[simp] theorem State.moveAxes_table (x : Angles) : (s.moveAxes x).table = s.table := by
  unfold State.moveAxes; simp
@[simp] theorem State.moveAxes_sectors (x : Angles) : (s.moveAxes x).sectors = s.sectors := by
  unfold State.moveAxes; simp
@[simp] theorem State.moveAxes_decayDue (x : Angles) : (s.moveAxes x).decayDue = s.decayDue := by
  unfold State.moveAxes; simp
@[simp] theorem State.moveAxes_forced (x : Angles) : (s.moveAxes x).forced = s.forced := by
  unfold State.moveAxes; simp
@[simp] theorem State.moveAxes_axesReadyRaised (x : Angles) : (s.moveAxes x).axesReadyRaised = s.axesReadyRaised := by
  unfold State.moveAxes; simp
@[simp] theorem State.moveAxes_light (x : Angles) : (s.moveAxes x).light = s.light := by
  unfold State.moveAxes; simp
@[simp] theorem State.moveAxes_config (x : Angles) : (s.moveAxes x).config = s.config := by
  unfold State.moveAxes; simp
@[simp] theorem State.moveAxes_line (x : Angles) : (s.moveAxes x).line = s.line := by
  unfold State.moveAxes; simp
@[simp] theorem State.moveAxes_peers (x : Angles) : (s.moveAxes x).peers = s.peers := by
  unfold State.moveAxes; simp
@[simp] theorem State.moveAxes_link (x : Angles) : (s.moveAxes x).link = s.link := by
  unfold State.moveAxes; simp
@[simp] theorem State.moveAxes_choices (x : Angles) : (s.moveAxes x).choices = s.choices := by
  unfold State.moveAxes; simp
@[simp] theorem State.moveAxes_pending (x : Angles) : (s.moveAxes x).pending = s.pending := by
  unfold State.moveAxes; simp

/-! ### `State.adjustAxes` -/

@[simp] theorem State.adjustAxes_clock (x : Angles) : (s.adjustAxes x).clock = s.clock := by
  unfold State.adjustAxes; simp
@[simp] theorem State.adjustAxes_fine (x : Angles) : (s.adjustAxes x).fine = s.fine := by
  unfold State.adjustAxes; simp
@[simp] theorem State.adjustAxes_setup (x : Angles) : (s.adjustAxes x).setup = s.setup := by
  unfold State.adjustAxes; simp
@[simp] theorem State.adjustAxes_table (x : Angles) : (s.adjustAxes x).table = s.table := by
  unfold State.adjustAxes; simp
@[simp] theorem State.adjustAxes_sectors (x : Angles) : (s.adjustAxes x).sectors = s.sectors := by
  unfold State.adjustAxes; simp
@[simp] theorem State.adjustAxes_decayDue (x : Angles) : (s.adjustAxes x).decayDue = s.decayDue := by
  unfold State.adjustAxes; simp
@[simp] theorem State.adjustAxes_forced (x : Angles) : (s.adjustAxes x).forced = s.forced := by
  unfold State.adjustAxes; simp
@[simp] theorem State.adjustAxes_engine (x : Angles) : (s.adjustAxes x).engine = s.engine := by
  unfold State.adjustAxes; simp
@[simp] theorem State.adjustAxes_axesReadyRaised (x : Angles) :
    (s.adjustAxes x).axesReadyRaised = s.axesReadyRaised := by
  unfold State.adjustAxes; simp
@[simp] theorem State.adjustAxes_light (x : Angles) : (s.adjustAxes x).light = s.light := by
  unfold State.adjustAxes; simp
@[simp] theorem State.adjustAxes_config (x : Angles) : (s.adjustAxes x).config = s.config := by
  unfold State.adjustAxes; simp
@[simp] theorem State.adjustAxes_line (x : Angles) : (s.adjustAxes x).line = s.line := by
  unfold State.adjustAxes; simp
@[simp] theorem State.adjustAxes_peers (x : Angles) : (s.adjustAxes x).peers = s.peers := by
  unfold State.adjustAxes; simp
@[simp] theorem State.adjustAxes_link (x : Angles) : (s.adjustAxes x).link = s.link := by
  unfold State.adjustAxes; simp
@[simp] theorem State.adjustAxes_choices (x : Angles) : (s.adjustAxes x).choices = s.choices := by
  unfold State.adjustAxes; simp
@[simp] theorem State.adjustAxes_pending (x : Angles) : (s.adjustAxes x).pending = s.pending := by
  unfold State.adjustAxes; simp

/-! ### `State.offerIntent` -/

@[simp] theorem State.offerIntent_clock (r : TargetRecord) (d : Nat) : (s.offerIntent r d).clock = s.clock := by
  unfold State.offerIntent; repeat' split
  all_goals simp
@[simp] theorem State.offerIntent_fine (r : TargetRecord) (d : Nat) : (s.offerIntent r d).fine = s.fine := by
  unfold State.offerIntent; repeat' split
  all_goals simp
@[simp] theorem State.offerIntent_setup (r : TargetRecord) (d : Nat) : (s.offerIntent r d).setup = s.setup := by
  unfold State.offerIntent; repeat' split
  all_goals simp
@[simp] theorem State.offerIntent_table (r : TargetRecord) (d : Nat) : (s.offerIntent r d).table = s.table := by
  unfold State.offerIntent; repeat' split
  all_goals simp
@[simp] theorem State.offerIntent_sectors (r : TargetRecord) (d : Nat) : (s.offerIntent r d).sectors = s.sectors := by
  unfold State.offerIntent; repeat' split
  all_goals simp
@[simp] theorem State.offerIntent_decayDue (r : TargetRecord) (d : Nat) :
    (s.offerIntent r d).decayDue = s.decayDue := by
  unfold State.offerIntent; repeat' split
  all_goals simp
@[simp] theorem State.offerIntent_forced (r : TargetRecord) (d : Nat) : (s.offerIntent r d).forced = s.forced := by
  unfold State.offerIntent; repeat' split
  all_goals simp
@[simp] theorem State.offerIntent_engine (r : TargetRecord) (d : Nat) : (s.offerIntent r d).engine = s.engine := by
  unfold State.offerIntent; repeat' split
  all_goals simp
@[simp] theorem State.offerIntent_hz (r : TargetRecord) (d : Nat) : (s.offerIntent r d).hz = s.hz := by
  unfold State.offerIntent; repeat' split
  all_goals simp
@[simp] theorem State.offerIntent_vt (r : TargetRecord) (d : Nat) : (s.offerIntent r d).vt = s.vt := by
  unfold State.offerIntent; repeat' split
  all_goals simp
@[simp] theorem State.offerIntent_axesReadyRaised (r : TargetRecord) (d : Nat) :
    (s.offerIntent r d).axesReadyRaised = s.axesReadyRaised := by
  unfold State.offerIntent; repeat' split
  all_goals simp
@[simp] theorem State.offerIntent_light (r : TargetRecord) (d : Nat) : (s.offerIntent r d).light = s.light := by
  unfold State.offerIntent; repeat' split
  all_goals simp
@[simp] theorem State.offerIntent_config (r : TargetRecord) (d : Nat) : (s.offerIntent r d).config = s.config := by
  unfold State.offerIntent; repeat' split
  all_goals simp
@[simp] theorem State.offerIntent_peers (r : TargetRecord) (d : Nat) : (s.offerIntent r d).peers = s.peers := by
  unfold State.offerIntent; repeat' split
  all_goals simp
@[simp] theorem State.offerIntent_link (r : TargetRecord) (d : Nat) : (s.offerIntent r d).link = s.link := by
  unfold State.offerIntent; repeat' split
  all_goals simp
@[simp] theorem State.offerIntent_choices (r : TargetRecord) (d : Nat) : (s.offerIntent r d).choices = s.choices := by
  unfold State.offerIntent; repeat' split
  all_goals simp
@[simp] theorem State.offerIntent_pending (r : TargetRecord) (d : Nat) : (s.offerIntent r d).pending = s.pending := by
  unfold State.offerIntent; repeat' split
  all_goals simp

/-! ### `State.handOver` -/

@[simp] theorem State.handOver_clock (k : Nat) (r : TargetRecord) (d : Direction) :
    (s.handOver k r d).clock = s.clock := by
  unfold State.handOver; simp
@[simp] theorem State.handOver_fine (k : Nat) (r : TargetRecord) (d : Direction) :
    (s.handOver k r d).fine = s.fine := by
  unfold State.handOver; simp
@[simp] theorem State.handOver_setup (k : Nat) (r : TargetRecord) (d : Direction) :
    (s.handOver k r d).setup = s.setup := by
  unfold State.handOver; simp
@[simp] theorem State.handOver_sectors (k : Nat) (r : TargetRecord) (d : Direction) :
    (s.handOver k r d).sectors = s.sectors := by
  unfold State.handOver; simp
@[simp] theorem State.handOver_decayDue (k : Nat) (r : TargetRecord) (d : Direction) :
    (s.handOver k r d).decayDue = s.decayDue := by
  unfold State.handOver; simp
@[simp] theorem State.handOver_forced (k : Nat) (r : TargetRecord) (d : Direction) :
    (s.handOver k r d).forced = s.forced := by
  unfold State.handOver; simp
@[simp] theorem State.handOver_axesReadyRaised (k : Nat) (r : TargetRecord) (d : Direction) :
    (s.handOver k r d).axesReadyRaised = s.axesReadyRaised := by
  unfold State.handOver; simp
@[simp] theorem State.handOver_config (k : Nat) (r : TargetRecord) (d : Direction) :
    (s.handOver k r d).config = s.config := by
  unfold State.handOver; simp
@[simp] theorem State.handOver_peers (k : Nat) (r : TargetRecord) (d : Direction) :
    (s.handOver k r d).peers = s.peers := by
  unfold State.handOver; simp
@[simp] theorem State.handOver_link (k : Nat) (r : TargetRecord) (d : Direction) :
    (s.handOver k r d).link = s.link := by
  unfold State.handOver; simp
@[simp] theorem State.handOver_choices (k : Nat) (r : TargetRecord) (d : Direction) :
    (s.handOver k r d).choices = s.choices := by
  unfold State.handOver; simp
@[simp] theorem State.handOver_pending (k : Nat) (r : TargetRecord) (d : Direction) :
    (s.handOver k r d).pending = s.pending := by
  unfold State.handOver; simp

/-! ### `State.dropForced` -/

@[simp] theorem State.dropForced_clock : (s.dropForced).clock = s.clock := by
  unfold State.dropForced; simp
@[simp] theorem State.dropForced_fine : (s.dropForced).fine = s.fine := by
  unfold State.dropForced; simp
@[simp] theorem State.dropForced_setup : (s.dropForced).setup = s.setup := by
  unfold State.dropForced; simp
@[simp] theorem State.dropForced_table : (s.dropForced).table = s.table := by
  unfold State.dropForced; simp
@[simp] theorem State.dropForced_sectors : (s.dropForced).sectors = s.sectors := by
  unfold State.dropForced; simp
@[simp] theorem State.dropForced_decayDue : (s.dropForced).decayDue = s.decayDue := by
  unfold State.dropForced; simp
@[simp] theorem State.dropForced_engine : (s.dropForced).engine = s.engine := by
  unfold State.dropForced; simp
@[simp] theorem State.dropForced_hz : (s.dropForced).hz = s.hz := by
  unfold State.dropForced; simp
@[simp] theorem State.dropForced_vt : (s.dropForced).vt = s.vt := by
  unfold State.dropForced; simp
@[simp] theorem State.dropForced_axesReadyRaised : (s.dropForced).axesReadyRaised = s.axesReadyRaised := by
  unfold State.dropForced; simp
@[simp] theorem State.dropForced_light : (s.dropForced).light = s.light := by
  unfold State.dropForced; simp
@[simp] theorem State.dropForced_config : (s.dropForced).config = s.config := by
  unfold State.dropForced; simp
@[simp] theorem State.dropForced_line : (s.dropForced).line = s.line := by
  unfold State.dropForced; simp
@[simp] theorem State.dropForced_peers : (s.dropForced).peers = s.peers := by
  unfold State.dropForced; simp
@[simp] theorem State.dropForced_choices : (s.dropForced).choices = s.choices := by
  unfold State.dropForced; simp
@[simp] theorem State.dropForced_pending : (s.dropForced).pending = s.pending := by
  unfold State.dropForced; simp

/-! ### `State.ordinaryPass` -/

@[simp] theorem State.ordinaryPass_clock : (s.ordinaryPass).clock = s.clock := by
  unfold State.ordinaryPass; repeat' split
  all_goals simp
@[simp] theorem State.ordinaryPass_fine : (s.ordinaryPass).fine = s.fine := by
  unfold State.ordinaryPass; repeat' split
  all_goals simp
@[simp] theorem State.ordinaryPass_setup : (s.ordinaryPass).setup = s.setup := by
  unfold State.ordinaryPass; repeat' split
  all_goals simp
@[simp] theorem State.ordinaryPass_sectors : (s.ordinaryPass).sectors = s.sectors := by
  unfold State.ordinaryPass; repeat' split
  all_goals simp
@[simp] theorem State.ordinaryPass_decayDue : (s.ordinaryPass).decayDue = s.decayDue := by
  unfold State.ordinaryPass; repeat' split
  all_goals simp
@[simp] theorem State.ordinaryPass_forced : (s.ordinaryPass).forced = s.forced := by
  unfold State.ordinaryPass; repeat' split
  all_goals simp
@[simp] theorem State.ordinaryPass_axesReadyRaised : (s.ordinaryPass).axesReadyRaised = s.axesReadyRaised := by
  unfold State.ordinaryPass; repeat' split
  all_goals simp
@[simp] theorem State.ordinaryPass_config : (s.ordinaryPass).config = s.config := by
  unfold State.ordinaryPass; repeat' split
  all_goals simp
@[simp] theorem State.ordinaryPass_peers : (s.ordinaryPass).peers = s.peers := by
  unfold State.ordinaryPass; repeat' split
  all_goals simp
@[simp] theorem State.ordinaryPass_link : (s.ordinaryPass).link = s.link := by
  unfold State.ordinaryPass; repeat' split
  all_goals simp
@[simp] theorem State.ordinaryPass_choices : (s.ordinaryPass).choices = s.choices := by
  unfold State.ordinaryPass; repeat' split
  all_goals simp
@[simp] theorem State.ordinaryPass_pending : (s.ordinaryPass).pending = s.pending := by
  unfold State.ordinaryPass; repeat' split
  all_goals simp

/-! ### `State.forcedIdle` -/

@[simp] theorem State.forcedIdle_clock (k : Nat) (r : TargetRecord) : (s.forcedIdle k r).clock = s.clock := by
  unfold State.forcedIdle; repeat' split
  all_goals simp
@[simp] theorem State.forcedIdle_fine (k : Nat) (r : TargetRecord) : (s.forcedIdle k r).fine = s.fine := by
  unfold State.forcedIdle; repeat' split
  all_goals simp
@[simp] theorem State.forcedIdle_setup (k : Nat) (r : TargetRecord) : (s.forcedIdle k r).setup = s.setup := by
  unfold State.forcedIdle; repeat' split
  all_goals simp
@[simp] theorem State.forcedIdle_sectors (k : Nat) (r : TargetRecord) : (s.forcedIdle k r).sectors = s.sectors := by
  unfold State.forcedIdle; repeat' split
  all_goals simp
@[simp] theorem State.forcedIdle_decayDue (k : Nat) (r : TargetRecord) : (s.forcedIdle k r).decayDue = s.decayDue := by
  unfold State.forcedIdle; repeat' split
  all_goals simp
@[simp] theorem State.forcedIdle_axesReadyRaised (k : Nat) (r : TargetRecord) :
    (s.forcedIdle k r).axesReadyRaised = s.axesReadyRaised := by
  unfold State.forcedIdle; repeat' split
  all_goals simp
@[simp] theorem State.forcedIdle_config (k : Nat) (r : TargetRecord) : (s.forcedIdle k r).config = s.config := by
  unfold State.forcedIdle; repeat' split
  all_goals simp
@[simp] theorem State.forcedIdle_peers (k : Nat) (r : TargetRecord) : (s.forcedIdle k r).peers = s.peers := by
  unfold State.forcedIdle; repeat' split
  all_goals simp
@[simp] theorem State.forcedIdle_choices (k : Nat) (r : TargetRecord) : (s.forcedIdle k r).choices = s.choices := by
  unfold State.forcedIdle; repeat' split
  all_goals simp
@[simp] theorem State.forcedIdle_pending (k : Nat) (r : TargetRecord) : (s.forcedIdle k r).pending = s.pending := by
  unfold State.forcedIdle; repeat' split
  all_goals simp

/-! ### `State.selection` -/

@[simp] theorem State.selection_clock : (s.selection).clock = s.clock := by
  unfold State.selection; repeat' split
  all_goals simp
@[simp] theorem State.selection_fine : (s.selection).fine = s.fine := by
  unfold State.selection; repeat' split
  all_goals simp
@[simp] theorem State.selection_setup : (s.selection).setup = s.setup := by
  unfold State.selection; repeat' split
  all_goals simp
@[simp] theorem State.selection_sectors : (s.selection).sectors = s.sectors := by
  unfold State.selection; repeat' split
  all_goals simp
@[simp] theorem State.selection_decayDue : (s.selection).decayDue = s.decayDue := by
  unfold State.selection; repeat' split
  all_goals simp
@[simp] theorem State.selection_axesReadyRaised : (s.selection).axesReadyRaised = s.axesReadyRaised := by
  unfold State.selection; repeat' split
  all_goals simp
@[simp] theorem State.selection_config : (s.selection).config = s.config := by
  unfold State.selection; repeat' split
  all_goals simp
@[simp] theorem State.selection_peers : (s.selection).peers = s.peers := by
  unfold State.selection; repeat' split
  all_goals simp
@[simp] theorem State.selection_choices : (s.selection).choices = s.choices := by
  unfold State.selection; repeat' split
  all_goals simp
@[simp] theorem State.selection_pending : (s.selection).pending = s.pending := by
  unfold State.selection; repeat' split
  all_goals simp

/-! ### `State.select` -/

@[simp] theorem State.select_clock : (s.select).clock = s.clock := by
  unfold State.select; repeat' split
  all_goals simp
@[simp] theorem State.select_fine : (s.select).fine = s.fine := by
  unfold State.select; repeat' split
  all_goals simp
@[simp] theorem State.select_setup : (s.select).setup = s.setup := by
  unfold State.select; repeat' split
  all_goals simp
@[simp] theorem State.select_sectors : (s.select).sectors = s.sectors := by
  unfold State.select; repeat' split
  all_goals simp
@[simp] theorem State.select_decayDue : (s.select).decayDue = s.decayDue := by
  unfold State.select; repeat' split
  all_goals simp
@[simp] theorem State.select_axesReadyRaised : (s.select).axesReadyRaised = s.axesReadyRaised := by
  unfold State.select; repeat' split
  all_goals simp
@[simp] theorem State.select_config : (s.select).config = s.config := by
  unfold State.select; repeat' split
  all_goals simp
@[simp] theorem State.select_peers : (s.select).peers = s.peers := by
  unfold State.select; repeat' split
  all_goals simp
@[simp] theorem State.select_choices : (s.select).choices = s.choices := by
  unfold State.select; repeat' split
  all_goals simp
@[simp] theorem State.select_pending : (s.select).pending = s.pending := by
  unfold State.select; repeat' split
  all_goals simp

/-! ### `State.enterWaiting` -/

@[simp] theorem State.enterWaiting_clock : (s.enterWaiting).clock = s.clock := by
  unfold State.enterWaiting; simp
@[simp] theorem State.enterWaiting_fine : (s.enterWaiting).fine = s.fine := by
  unfold State.enterWaiting; simp
@[simp] theorem State.enterWaiting_setup : (s.enterWaiting).setup = s.setup := by
  unfold State.enterWaiting; simp
@[simp] theorem State.enterWaiting_sectors : (s.enterWaiting).sectors = s.sectors := by
  unfold State.enterWaiting; simp
@[simp] theorem State.enterWaiting_decayDue : (s.enterWaiting).decayDue = s.decayDue := by
  unfold State.enterWaiting; simp
@[simp] theorem State.enterWaiting_axesReadyRaised : (s.enterWaiting).axesReadyRaised = s.axesReadyRaised := by
  unfold State.enterWaiting; simp
@[simp] theorem State.enterWaiting_config : (s.enterWaiting).config = s.config := by
  unfold State.enterWaiting; simp
@[simp] theorem State.enterWaiting_peers : (s.enterWaiting).peers = s.peers := by
  unfold State.enterWaiting; simp
@[simp] theorem State.enterWaiting_choices : (s.enterWaiting).choices = s.choices := by
  unfold State.enterWaiting; simp
@[simp] theorem State.enterWaiting_pending : (s.enterWaiting).pending = s.pending := by
  unfold State.enterWaiting; simp

/-! ### `State.endAim` -/

@[simp] theorem State.endAim_clock (o : AimOutcome) (t : Option Nat) : (s.endAim o t).clock = s.clock := by
  unfold State.endAim; simp
@[simp] theorem State.endAim_fine (o : AimOutcome) (t : Option Nat) : (s.endAim o t).fine = s.fine := by
  unfold State.endAim; simp
@[simp] theorem State.endAim_setup (o : AimOutcome) (t : Option Nat) : (s.endAim o t).setup = s.setup := by
  unfold State.endAim; simp
@[simp] theorem State.endAim_decayDue (o : AimOutcome) (t : Option Nat) : (s.endAim o t).decayDue = s.decayDue := by
  unfold State.endAim; simp
@[simp] theorem State.endAim_axesReadyRaised (o : AimOutcome) (t : Option Nat) :
    (s.endAim o t).axesReadyRaised = s.axesReadyRaised := by
  unfold State.endAim; simp
@[simp] theorem State.endAim_config (o : AimOutcome) (t : Option Nat) : (s.endAim o t).config = s.config := by
  unfold State.endAim; simp
@[simp] theorem State.endAim_peers (o : AimOutcome) (t : Option Nat) : (s.endAim o t).peers = s.peers := by
  unfold State.endAim; simp
@[simp] theorem State.endAim_choices (o : AimOutcome) (t : Option Nat) : (s.endAim o t).choices = s.choices := by
  unfold State.endAim; simp
@[simp] theorem State.endAim_pending (o : AimOutcome) (t : Option Nat) : (s.endAim o t).pending = s.pending := by
  unfold State.endAim; simp

/-! ### `State.stopAim` -/

@[simp] theorem State.stopAim_clock (o : AimOutcome) : (s.stopAim o).clock = s.clock := by
  unfold State.stopAim; simp
@[simp] theorem State.stopAim_fine (o : AimOutcome) : (s.stopAim o).fine = s.fine := by
  unfold State.stopAim; simp
@[simp] theorem State.stopAim_setup (o : AimOutcome) : (s.stopAim o).setup = s.setup := by
  unfold State.stopAim; simp
@[simp] theorem State.stopAim_decayDue (o : AimOutcome) : (s.stopAim o).decayDue = s.decayDue := by
  unfold State.stopAim; simp
@[simp] theorem State.stopAim_forced (o : AimOutcome) : (s.stopAim o).forced = s.forced := by
  unfold State.stopAim; simp
@[simp] theorem State.stopAim_hz (o : AimOutcome) : (s.stopAim o).hz = s.hz := by
  unfold State.stopAim; simp
@[simp] theorem State.stopAim_vt (o : AimOutcome) : (s.stopAim o).vt = s.vt := by
  unfold State.stopAim; simp
@[simp] theorem State.stopAim_axesReadyRaised (o : AimOutcome) : (s.stopAim o).axesReadyRaised = s.axesReadyRaised := by
  unfold State.stopAim; simp
@[simp] theorem State.stopAim_config (o : AimOutcome) : (s.stopAim o).config = s.config := by
  unfold State.stopAim; simp
@[simp] theorem State.stopAim_peers (o : AimOutcome) : (s.stopAim o).peers = s.peers := by
  unfold State.stopAim; simp
@[simp] theorem State.stopAim_choices (o : AimOutcome) : (s.stopAim o).choices = s.choices := by
  unfold State.stopAim; simp
@[simp] theorem State.stopAim_pending (o : AimOutcome) : (s.stopAim o).pending = s.pending := by
  unfold State.stopAim; simp

/-! ### `State.engineFault` -/

@[simp] theorem State.engineFault_clock (ax : Axis) : (s.engineFault ax).clock = s.clock := by
  unfold State.engineFault; repeat' split
  all_goals simp
@[simp] theorem State.engineFault_fine (ax : Axis) : (s.engineFault ax).fine = s.fine := by
  unfold State.engineFault; repeat' split
  all_goals simp
@[simp] theorem State.engineFault_setup (ax : Axis) : (s.engineFault ax).setup = s.setup := by
  unfold State.engineFault; repeat' split
  all_goals simp
@[simp] theorem State.engineFault_decayDue (ax : Axis) : (s.engineFault ax).decayDue = s.decayDue := by
  unfold State.engineFault; repeat' split
  all_goals simp
@[simp] theorem State.engineFault_forced (ax : Axis) : (s.engineFault ax).forced = s.forced := by
  unfold State.engineFault; repeat' split
  all_goals simp
@[simp] theorem State.engineFault_axesReadyRaised (ax : Axis) :
    (s.engineFault ax).axesReadyRaised = s.axesReadyRaised := by
  unfold State.engineFault; repeat' split
  all_goals simp
@[simp] theorem State.engineFault_config (ax : Axis) : (s.engineFault ax).config = s.config := by
  unfold State.engineFault; repeat' split
  all_goals simp
@[simp] theorem State.engineFault_peers (ax : Axis) : (s.engineFault ax).peers = s.peers := by
  unfold State.engineFault; repeat' split
  all_goals simp
@[simp] theorem State.engineFault_choices (ax : Axis) : (s.engineFault ax).choices = s.choices := by
  unfold State.engineFault; repeat' split
  all_goals simp
@[simp] theorem State.engineFault_pending (ax : Axis) : (s.engineFault ax).pending = s.pending := by
  unfold State.engineFault; repeat' split
  all_goals simp

/-! ### `State.faultDrive` -/

@[simp] theorem State.faultDrive_clock (ax : Axis) (c : FaultCode) : (s.faultDrive ax c).clock = s.clock := by
  unfold State.faultDrive; repeat' split
  all_goals simp
@[simp] theorem State.faultDrive_fine (ax : Axis) (c : FaultCode) : (s.faultDrive ax c).fine = s.fine := by
  unfold State.faultDrive; repeat' split
  all_goals simp
@[simp] theorem State.faultDrive_setup (ax : Axis) (c : FaultCode) : (s.faultDrive ax c).setup = s.setup := by
  unfold State.faultDrive; repeat' split
  all_goals simp
@[simp] theorem State.faultDrive_decayDue (ax : Axis) (c : FaultCode) : (s.faultDrive ax c).decayDue = s.decayDue := by
  unfold State.faultDrive; repeat' split
  all_goals simp
@[simp] theorem State.faultDrive_forced (ax : Axis) (c : FaultCode) : (s.faultDrive ax c).forced = s.forced := by
  unfold State.faultDrive; repeat' split
  all_goals simp
@[simp] theorem State.faultDrive_axesReadyRaised (ax : Axis) (c : FaultCode) :
    (s.faultDrive ax c).axesReadyRaised = s.axesReadyRaised := by
  unfold State.faultDrive; repeat' split
  all_goals simp
@[simp] theorem State.faultDrive_config (ax : Axis) (c : FaultCode) : (s.faultDrive ax c).config = s.config := by
  unfold State.faultDrive; repeat' split
  all_goals simp
@[simp] theorem State.faultDrive_peers (ax : Axis) (c : FaultCode) : (s.faultDrive ax c).peers = s.peers := by
  unfold State.faultDrive; repeat' split
  all_goals simp
@[simp] theorem State.faultDrive_choices (ax : Axis) (c : FaultCode) : (s.faultDrive ax c).choices = s.choices := by
  unfold State.faultDrive; repeat' split
  all_goals simp
@[simp] theorem State.faultDrive_pending (ax : Axis) (c : FaultCode) : (s.faultDrive ax c).pending = s.pending := by
  unfold State.faultDrive; repeat' split
  all_goals simp

/-! ### `State.endAttempt` -/

@[simp] theorem State.endAttempt_clock (b : Bool) : (s.endAttempt b).clock = s.clock := by
  unfold State.endAttempt; repeat' split
  all_goals simp
@[simp] theorem State.endAttempt_fine (b : Bool) : (s.endAttempt b).fine = s.fine := by
  unfold State.endAttempt; repeat' split
  all_goals simp
@[simp] theorem State.endAttempt_setup (b : Bool) : (s.endAttempt b).setup = s.setup := by
  unfold State.endAttempt; repeat' split
  all_goals simp
@[simp] theorem State.endAttempt_decayDue (b : Bool) : (s.endAttempt b).decayDue = s.decayDue := by
  unfold State.endAttempt; repeat' split
  all_goals simp
@[simp] theorem State.endAttempt_axesReadyRaised (b : Bool) : (s.endAttempt b).axesReadyRaised = s.axesReadyRaised := by
  unfold State.endAttempt; repeat' split
  all_goals simp
@[simp] theorem State.endAttempt_config (b : Bool) : (s.endAttempt b).config = s.config := by
  unfold State.endAttempt; repeat' split
  all_goals simp
@[simp] theorem State.endAttempt_peers (b : Bool) : (s.endAttempt b).peers = s.peers := by
  unfold State.endAttempt; repeat' split
  all_goals simp
@[simp] theorem State.endAttempt_choices (b : Bool) : (s.endAttempt b).choices = s.choices := by
  unfold State.endAttempt; repeat' split
  all_goals simp
@[simp] theorem State.endAttempt_pending (b : Bool) : (s.endAttempt b).pending = s.pending := by
  unfold State.endAttempt; repeat' split
  all_goals simp

/-! ### `State.searchAt` -/

@[simp] theorem State.searchAt_clock (k : Nat) : (s.searchAt k).clock = s.clock := by
  unfold State.searchAt; repeat' split
  all_goals simp
@[simp] theorem State.searchAt_fine (k : Nat) : (s.searchAt k).fine = s.fine := by
  unfold State.searchAt; repeat' split
  all_goals simp
@[simp] theorem State.searchAt_setup (k : Nat) : (s.searchAt k).setup = s.setup := by
  unfold State.searchAt; repeat' split
  all_goals simp
@[simp] theorem State.searchAt_table (k : Nat) : (s.searchAt k).table = s.table := by
  unfold State.searchAt; repeat' split
  all_goals simp
@[simp] theorem State.searchAt_sectors (k : Nat) : (s.searchAt k).sectors = s.sectors := by
  unfold State.searchAt; repeat' split
  all_goals simp
@[simp] theorem State.searchAt_decayDue (k : Nat) : (s.searchAt k).decayDue = s.decayDue := by
  unfold State.searchAt; repeat' split
  all_goals simp
@[simp] theorem State.searchAt_forced (k : Nat) : (s.searchAt k).forced = s.forced := by
  unfold State.searchAt; repeat' split
  all_goals simp
@[simp] theorem State.searchAt_axesReadyRaised (k : Nat) : (s.searchAt k).axesReadyRaised = s.axesReadyRaised := by
  unfold State.searchAt; repeat' split
  all_goals simp
@[simp] theorem State.searchAt_config (k : Nat) : (s.searchAt k).config = s.config := by
  unfold State.searchAt; repeat' split
  all_goals simp
@[simp] theorem State.searchAt_line (k : Nat) : (s.searchAt k).line = s.line := by
  unfold State.searchAt; repeat' split
  all_goals simp
@[simp] theorem State.searchAt_peers (k : Nat) : (s.searchAt k).peers = s.peers := by
  unfold State.searchAt; repeat' split
  all_goals simp
@[simp] theorem State.searchAt_link (k : Nat) : (s.searchAt k).link = s.link := by
  unfold State.searchAt; repeat' split
  all_goals simp
@[simp] theorem State.searchAt_choices (k : Nat) : (s.searchAt k).choices = s.choices := by
  unfold State.searchAt; repeat' split
  all_goals simp
@[simp] theorem State.searchAt_pending (k : Nat) : (s.searchAt k).pending = s.pending := by
  unfold State.searchAt; repeat' split
  all_goals simp

/-! ### `State.countWindow` -/

@[simp] theorem State.countWindow_clock : (s.countWindow).clock = s.clock := by
  unfold State.countWindow; dsimp only; repeat' split
  all_goals simp
@[simp] theorem State.countWindow_fine : (s.countWindow).fine = s.fine := by
  unfold State.countWindow; dsimp only; repeat' split
  all_goals simp
@[simp] theorem State.countWindow_setup : (s.countWindow).setup = s.setup := by
  unfold State.countWindow; dsimp only; repeat' split
  all_goals simp
@[simp] theorem State.countWindow_decayDue : (s.countWindow).decayDue = s.decayDue := by
  unfold State.countWindow; dsimp only; repeat' split
  all_goals simp
@[simp] theorem State.countWindow_axesReadyRaised : (s.countWindow).axesReadyRaised = s.axesReadyRaised := by
  unfold State.countWindow; dsimp only; repeat' split
  all_goals simp
@[simp] theorem State.countWindow_config : (s.countWindow).config = s.config := by
  unfold State.countWindow; dsimp only; repeat' split
  all_goals simp
@[simp] theorem State.countWindow_peers : (s.countWindow).peers = s.peers := by
  unfold State.countWindow; dsimp only; repeat' split
  all_goals simp
@[simp] theorem State.countWindow_choices : (s.countWindow).choices = s.choices := by
  unfold State.countWindow; dsimp only; repeat' split
  all_goals simp
@[simp] theorem State.countWindow_pending : (s.countWindow).pending = s.pending := by
  unfold State.countWindow; dsimp only; repeat' split
  all_goals simp

/-! ### `State.enterAcquiring` -/

@[simp] theorem State.enterAcquiring_clock : (s.enterAcquiring).clock = s.clock := by
  unfold State.enterAcquiring; simp
@[simp] theorem State.enterAcquiring_fine : (s.enterAcquiring).fine = s.fine := by
  unfold State.enterAcquiring; simp
@[simp] theorem State.enterAcquiring_setup : (s.enterAcquiring).setup = s.setup := by
  unfold State.enterAcquiring; simp
@[simp] theorem State.enterAcquiring_table : (s.enterAcquiring).table = s.table := by
  unfold State.enterAcquiring; simp
@[simp] theorem State.enterAcquiring_sectors : (s.enterAcquiring).sectors = s.sectors := by
  unfold State.enterAcquiring; simp
@[simp] theorem State.enterAcquiring_decayDue : (s.enterAcquiring).decayDue = s.decayDue := by
  unfold State.enterAcquiring; simp
@[simp] theorem State.enterAcquiring_forced : (s.enterAcquiring).forced = s.forced := by
  unfold State.enterAcquiring; simp
@[simp] theorem State.enterAcquiring_hz : (s.enterAcquiring).hz = s.hz := by
  unfold State.enterAcquiring; simp
@[simp] theorem State.enterAcquiring_vt : (s.enterAcquiring).vt = s.vt := by
  unfold State.enterAcquiring; simp
@[simp] theorem State.enterAcquiring_axesReadyRaised : (s.enterAcquiring).axesReadyRaised = s.axesReadyRaised := by
  unfold State.enterAcquiring; simp
@[simp] theorem State.enterAcquiring_config : (s.enterAcquiring).config = s.config := by
  unfold State.enterAcquiring; simp
@[simp] theorem State.enterAcquiring_line : (s.enterAcquiring).line = s.line := by
  unfold State.enterAcquiring; simp
@[simp] theorem State.enterAcquiring_peers : (s.enterAcquiring).peers = s.peers := by
  unfold State.enterAcquiring; simp
@[simp] theorem State.enterAcquiring_link : (s.enterAcquiring).link = s.link := by
  unfold State.enterAcquiring; simp
@[simp] theorem State.enterAcquiring_choices : (s.enterAcquiring).choices = s.choices := by
  unfold State.enterAcquiring; simp
@[simp] theorem State.enterAcquiring_pending : (s.enterAcquiring).pending = s.pending := by
  unfold State.enterAcquiring; simp

/-! ### `State.slewEnd` -/

@[simp] theorem State.slewEnd_clock : (s.slewEnd).clock = s.clock := by
  unfold State.slewEnd; dsimp only; repeat' split
  all_goals simp
@[simp] theorem State.slewEnd_fine : (s.slewEnd).fine = s.fine := by
  unfold State.slewEnd; dsimp only; repeat' split
  all_goals simp
@[simp] theorem State.slewEnd_setup : (s.slewEnd).setup = s.setup := by
  unfold State.slewEnd; dsimp only; repeat' split
  all_goals simp
@[simp] theorem State.slewEnd_table : (s.slewEnd).table = s.table := by
  unfold State.slewEnd; dsimp only; repeat' split
  all_goals simp
@[simp] theorem State.slewEnd_sectors : (s.slewEnd).sectors = s.sectors := by
  unfold State.slewEnd; dsimp only; repeat' split
  all_goals simp
@[simp] theorem State.slewEnd_decayDue : (s.slewEnd).decayDue = s.decayDue := by
  unfold State.slewEnd; dsimp only; repeat' split
  all_goals simp
@[simp] theorem State.slewEnd_forced : (s.slewEnd).forced = s.forced := by
  unfold State.slewEnd; dsimp only; repeat' split
  all_goals simp
@[simp] theorem State.slewEnd_axesReadyRaised : (s.slewEnd).axesReadyRaised = s.axesReadyRaised := by
  unfold State.slewEnd; dsimp only; repeat' split
  all_goals simp
@[simp] theorem State.slewEnd_config : (s.slewEnd).config = s.config := by
  unfold State.slewEnd; dsimp only; repeat' split
  all_goals simp
@[simp] theorem State.slewEnd_line : (s.slewEnd).line = s.line := by
  unfold State.slewEnd; dsimp only; repeat' split
  all_goals simp
@[simp] theorem State.slewEnd_peers : (s.slewEnd).peers = s.peers := by
  unfold State.slewEnd; dsimp only; repeat' split
  all_goals simp
@[simp] theorem State.slewEnd_link : (s.slewEnd).link = s.link := by
  unfold State.slewEnd; dsimp only; repeat' split
  all_goals simp
@[simp] theorem State.slewEnd_choices : (s.slewEnd).choices = s.choices := by
  unfold State.slewEnd; dsimp only; repeat' split
  all_goals simp
@[simp] theorem State.slewEnd_pending : (s.slewEnd).pending = s.pending := by
  unfold State.slewEnd; dsimp only; repeat' split
  all_goals simp

/-! ### `State.takeArrived` -/

@[simp] theorem State.takeArrived_clock (ax : Axis) : (s.takeArrived ax).clock = s.clock := by
  unfold State.takeArrived; dsimp only; repeat' split
  all_goals simp
@[simp] theorem State.takeArrived_fine (ax : Axis) : (s.takeArrived ax).fine = s.fine := by
  unfold State.takeArrived; dsimp only; repeat' split
  all_goals simp
@[simp] theorem State.takeArrived_setup (ax : Axis) : (s.takeArrived ax).setup = s.setup := by
  unfold State.takeArrived; dsimp only; repeat' split
  all_goals simp
@[simp] theorem State.takeArrived_table (ax : Axis) : (s.takeArrived ax).table = s.table := by
  unfold State.takeArrived; dsimp only; repeat' split
  all_goals simp
@[simp] theorem State.takeArrived_sectors (ax : Axis) : (s.takeArrived ax).sectors = s.sectors := by
  unfold State.takeArrived; dsimp only; repeat' split
  all_goals simp
@[simp] theorem State.takeArrived_decayDue (ax : Axis) : (s.takeArrived ax).decayDue = s.decayDue := by
  unfold State.takeArrived; dsimp only; repeat' split
  all_goals simp
@[simp] theorem State.takeArrived_forced (ax : Axis) : (s.takeArrived ax).forced = s.forced := by
  unfold State.takeArrived; dsimp only; repeat' split
  all_goals simp
@[simp] theorem State.takeArrived_axesReadyRaised (ax : Axis) :
    (s.takeArrived ax).axesReadyRaised = s.axesReadyRaised := by
  unfold State.takeArrived; dsimp only; repeat' split
  all_goals simp
@[simp] theorem State.takeArrived_config (ax : Axis) : (s.takeArrived ax).config = s.config := by
  unfold State.takeArrived; dsimp only; repeat' split
  all_goals simp
@[simp] theorem State.takeArrived_line (ax : Axis) : (s.takeArrived ax).line = s.line := by
  unfold State.takeArrived; dsimp only; repeat' split
  all_goals simp
@[simp] theorem State.takeArrived_peers (ax : Axis) : (s.takeArrived ax).peers = s.peers := by
  unfold State.takeArrived; dsimp only; repeat' split
  all_goals simp
@[simp] theorem State.takeArrived_link (ax : Axis) : (s.takeArrived ax).link = s.link := by
  unfold State.takeArrived; dsimp only; repeat' split
  all_goals simp
@[simp] theorem State.takeArrived_choices (ax : Axis) : (s.takeArrived ax).choices = s.choices := by
  unfold State.takeArrived; dsimp only; repeat' split
  all_goals simp
@[simp] theorem State.takeArrived_pending (ax : Axis) : (s.takeArrived ax).pending = s.pending := by
  unfold State.takeArrived; dsimp only; repeat' split
  all_goals simp

/-! ### `State.lock` -/

@[simp] theorem State.lock_clock (x : Angles) : (s.lock x).clock = s.clock := by
  unfold State.lock; dsimp only; repeat' split
  all_goals simp
@[simp] theorem State.lock_fine (x : Angles) : (s.lock x).fine = s.fine := by
  unfold State.lock; dsimp only; repeat' split
  all_goals simp
@[simp] theorem State.lock_setup (x : Angles) : (s.lock x).setup = s.setup := by
  unfold State.lock; dsimp only; repeat' split
  all_goals simp
@[simp] theorem State.lock_table (x : Angles) : (s.lock x).table = s.table := by
  unfold State.lock; dsimp only; repeat' split
  all_goals simp
@[simp] theorem State.lock_sectors (x : Angles) : (s.lock x).sectors = s.sectors := by
  unfold State.lock; dsimp only; repeat' split
  all_goals simp
@[simp] theorem State.lock_decayDue (x : Angles) : (s.lock x).decayDue = s.decayDue := by
  unfold State.lock; dsimp only; repeat' split
  all_goals simp
@[simp] theorem State.lock_forced (x : Angles) : (s.lock x).forced = s.forced := by
  unfold State.lock; dsimp only; repeat' split
  all_goals simp
@[simp] theorem State.lock_hz (x : Angles) : (s.lock x).hz = s.hz := by
  unfold State.lock; dsimp only; repeat' split
  all_goals simp
@[simp] theorem State.lock_vt (x : Angles) : (s.lock x).vt = s.vt := by
  unfold State.lock; dsimp only; repeat' split
  all_goals simp
@[simp] theorem State.lock_axesReadyRaised (x : Angles) : (s.lock x).axesReadyRaised = s.axesReadyRaised := by
  unfold State.lock; dsimp only; repeat' split
  all_goals simp
@[simp] theorem State.lock_config (x : Angles) : (s.lock x).config = s.config := by
  unfold State.lock; dsimp only; repeat' split
  all_goals simp
@[simp] theorem State.lock_line (x : Angles) : (s.lock x).line = s.line := by
  unfold State.lock; dsimp only; repeat' split
  all_goals simp
@[simp] theorem State.lock_peers (x : Angles) : (s.lock x).peers = s.peers := by
  unfold State.lock; dsimp only; repeat' split
  all_goals simp
@[simp] theorem State.lock_link (x : Angles) : (s.lock x).link = s.link := by
  unfold State.lock; dsimp only; repeat' split
  all_goals simp
@[simp] theorem State.lock_choices (x : Angles) : (s.lock x).choices = s.choices := by
  unfold State.lock; dsimp only; repeat' split
  all_goals simp
@[simp] theorem State.lock_pending (x : Angles) : (s.lock x).pending = s.pending := by
  unfold State.lock; dsimp only; repeat' split
  all_goals simp

/-! ### `State.wrongPrism` -/

@[simp] theorem State.wrongPrism_clock (w : WindowReport) : (s.wrongPrism w).clock = s.clock := by
  unfold State.wrongPrism; repeat' split
  all_goals simp
@[simp] theorem State.wrongPrism_fine (w : WindowReport) : (s.wrongPrism w).fine = s.fine := by
  unfold State.wrongPrism; repeat' split
  all_goals simp
@[simp] theorem State.wrongPrism_setup (w : WindowReport) : (s.wrongPrism w).setup = s.setup := by
  unfold State.wrongPrism; repeat' split
  all_goals simp
@[simp] theorem State.wrongPrism_decayDue (w : WindowReport) : (s.wrongPrism w).decayDue = s.decayDue := by
  unfold State.wrongPrism; repeat' split
  all_goals simp
@[simp] theorem State.wrongPrism_axesReadyRaised (w : WindowReport) :
    (s.wrongPrism w).axesReadyRaised = s.axesReadyRaised := by
  unfold State.wrongPrism; repeat' split
  all_goals simp
@[simp] theorem State.wrongPrism_config (w : WindowReport) : (s.wrongPrism w).config = s.config := by
  unfold State.wrongPrism; repeat' split
  all_goals simp
@[simp] theorem State.wrongPrism_peers (w : WindowReport) : (s.wrongPrism w).peers = s.peers := by
  unfold State.wrongPrism; repeat' split
  all_goals simp
@[simp] theorem State.wrongPrism_choices (w : WindowReport) : (s.wrongPrism w).choices = s.choices := by
  unfold State.wrongPrism; repeat' split
  all_goals simp
@[simp] theorem State.wrongPrism_pending (w : WindowReport) : (s.wrongPrism w).pending = s.pending := by
  unfold State.wrongPrism; repeat' split
  all_goals simp

/-! ### `State.centringOwn` -/

@[simp] theorem State.centringOwn_clock (w : WindowReport) : (s.centringOwn w).clock = s.clock := by
  unfold State.centringOwn; dsimp only; repeat' split
  all_goals simp
@[simp] theorem State.centringOwn_fine (w : WindowReport) : (s.centringOwn w).fine = s.fine := by
  unfold State.centringOwn; dsimp only; repeat' split
  all_goals simp
@[simp] theorem State.centringOwn_setup (w : WindowReport) : (s.centringOwn w).setup = s.setup := by
  unfold State.centringOwn; dsimp only; repeat' split
  all_goals simp
@[simp] theorem State.centringOwn_table (w : WindowReport) : (s.centringOwn w).table = s.table := by
  unfold State.centringOwn; dsimp only; repeat' split
  all_goals simp
@[simp] theorem State.centringOwn_sectors (w : WindowReport) : (s.centringOwn w).sectors = s.sectors := by
  unfold State.centringOwn; dsimp only; repeat' split
  all_goals simp
@[simp] theorem State.centringOwn_decayDue (w : WindowReport) : (s.centringOwn w).decayDue = s.decayDue := by
  unfold State.centringOwn; dsimp only; repeat' split
  all_goals simp
@[simp] theorem State.centringOwn_forced (w : WindowReport) : (s.centringOwn w).forced = s.forced := by
  unfold State.centringOwn; dsimp only; repeat' split
  all_goals simp
@[simp] theorem State.centringOwn_axesReadyRaised (w : WindowReport) :
    (s.centringOwn w).axesReadyRaised = s.axesReadyRaised := by
  unfold State.centringOwn; dsimp only; repeat' split
  all_goals simp
@[simp] theorem State.centringOwn_config (w : WindowReport) : (s.centringOwn w).config = s.config := by
  unfold State.centringOwn; dsimp only; repeat' split
  all_goals simp
@[simp] theorem State.centringOwn_line (w : WindowReport) : (s.centringOwn w).line = s.line := by
  unfold State.centringOwn; dsimp only; repeat' split
  all_goals simp
@[simp] theorem State.centringOwn_peers (w : WindowReport) : (s.centringOwn w).peers = s.peers := by
  unfold State.centringOwn; dsimp only; repeat' split
  all_goals simp
@[simp] theorem State.centringOwn_link (w : WindowReport) : (s.centringOwn w).link = s.link := by
  unfold State.centringOwn; dsimp only; repeat' split
  all_goals simp
@[simp] theorem State.centringOwn_choices (w : WindowReport) : (s.centringOwn w).choices = s.choices := by
  unfold State.centringOwn; dsimp only; repeat' split
  all_goals simp
@[simp] theorem State.centringOwn_pending (w : WindowReport) : (s.centringOwn w).pending = s.pending := by
  unfold State.centringOwn; dsimp only; repeat' split
  all_goals simp

/-! ### `State.searchWindow` -/

@[simp] theorem State.searchWindow_clock (a : Aim) (w : WindowReport) : (s.searchWindow a w).clock = s.clock := by
  unfold State.searchWindow; repeat' split
  all_goals simp
@[simp] theorem State.searchWindow_fine (a : Aim) (w : WindowReport) : (s.searchWindow a w).fine = s.fine := by
  unfold State.searchWindow; repeat' split
  all_goals simp
@[simp] theorem State.searchWindow_setup (a : Aim) (w : WindowReport) : (s.searchWindow a w).setup = s.setup := by
  unfold State.searchWindow; repeat' split
  all_goals simp
@[simp] theorem State.searchWindow_decayDue (a : Aim) (w : WindowReport) :
    (s.searchWindow a w).decayDue = s.decayDue := by
  unfold State.searchWindow; repeat' split
  all_goals simp
@[simp] theorem State.searchWindow_axesReadyRaised (a : Aim) (w : WindowReport) :
    (s.searchWindow a w).axesReadyRaised = s.axesReadyRaised := by
  unfold State.searchWindow; repeat' split
  all_goals simp
@[simp] theorem State.searchWindow_config (a : Aim) (w : WindowReport) : (s.searchWindow a w).config = s.config := by
  unfold State.searchWindow; repeat' split
  all_goals simp
@[simp] theorem State.searchWindow_peers (a : Aim) (w : WindowReport) : (s.searchWindow a w).peers = s.peers := by
  unfold State.searchWindow; repeat' split
  all_goals simp
@[simp] theorem State.searchWindow_choices (a : Aim) (w : WindowReport) : (s.searchWindow a w).choices = s.choices := by
  unfold State.searchWindow; repeat' split
  all_goals simp
@[simp] theorem State.searchWindow_pending (a : Aim) (w : WindowReport) : (s.searchWindow a w).pending = s.pending := by
  unfold State.searchWindow; repeat' split
  all_goals simp

/-! ### `State.centringWindow` -/

@[simp] theorem State.centringWindow_clock (a : Aim) (w : WindowReport) : (s.centringWindow a w).clock = s.clock := by
  unfold State.centringWindow; repeat' split
  all_goals simp
@[simp] theorem State.centringWindow_fine (a : Aim) (w : WindowReport) : (s.centringWindow a w).fine = s.fine := by
  unfold State.centringWindow; repeat' split
  all_goals simp
@[simp] theorem State.centringWindow_setup (a : Aim) (w : WindowReport) : (s.centringWindow a w).setup = s.setup := by
  unfold State.centringWindow; repeat' split
  all_goals simp
@[simp] theorem State.centringWindow_decayDue (a : Aim) (w : WindowReport) :
    (s.centringWindow a w).decayDue = s.decayDue := by
  unfold State.centringWindow; repeat' split
  all_goals simp
@[simp] theorem State.centringWindow_axesReadyRaised (a : Aim) (w : WindowReport) :
    (s.centringWindow a w).axesReadyRaised = s.axesReadyRaised := by
  unfold State.centringWindow; repeat' split
  all_goals simp
@[simp] theorem State.centringWindow_config (a : Aim) (w : WindowReport) :
    (s.centringWindow a w).config = s.config := by
  unfold State.centringWindow; repeat' split
  all_goals simp
@[simp] theorem State.centringWindow_peers (a : Aim) (w : WindowReport) : (s.centringWindow a w).peers = s.peers := by
  unfold State.centringWindow; repeat' split
  all_goals simp
@[simp] theorem State.centringWindow_choices (a : Aim) (w : WindowReport) :
    (s.centringWindow a w).choices = s.choices := by
  unfold State.centringWindow; repeat' split
  all_goals simp
@[simp] theorem State.centringWindow_pending (a : Aim) (w : WindowReport) :
    (s.centringWindow a w).pending = s.pending := by
  unfold State.centringWindow; repeat' split
  all_goals simp

/-! ### `State.rangingWindow` -/

@[simp] theorem State.rangingWindow_clock (a : Aim) (w : WindowReport) : (s.rangingWindow a w).clock = s.clock := by
  unfold State.rangingWindow; repeat' split
  all_goals simp
@[simp] theorem State.rangingWindow_fine (a : Aim) (w : WindowReport) : (s.rangingWindow a w).fine = s.fine := by
  unfold State.rangingWindow; repeat' split
  all_goals simp
@[simp] theorem State.rangingWindow_setup (a : Aim) (w : WindowReport) : (s.rangingWindow a w).setup = s.setup := by
  unfold State.rangingWindow; repeat' split
  all_goals simp
@[simp] theorem State.rangingWindow_table (a : Aim) (w : WindowReport) : (s.rangingWindow a w).table = s.table := by
  unfold State.rangingWindow; repeat' split
  all_goals simp
@[simp] theorem State.rangingWindow_sectors (a : Aim) (w : WindowReport) :
    (s.rangingWindow a w).sectors = s.sectors := by
  unfold State.rangingWindow; repeat' split
  all_goals simp
@[simp] theorem State.rangingWindow_decayDue (a : Aim) (w : WindowReport) :
    (s.rangingWindow a w).decayDue = s.decayDue := by
  unfold State.rangingWindow; repeat' split
  all_goals simp
@[simp] theorem State.rangingWindow_forced (a : Aim) (w : WindowReport) : (s.rangingWindow a w).forced = s.forced := by
  unfold State.rangingWindow; repeat' split
  all_goals simp
@[simp] theorem State.rangingWindow_engine (a : Aim) (w : WindowReport) : (s.rangingWindow a w).engine = s.engine := by
  unfold State.rangingWindow; repeat' split
  all_goals simp
@[simp] theorem State.rangingWindow_axesReadyRaised (a : Aim) (w : WindowReport) :
    (s.rangingWindow a w).axesReadyRaised = s.axesReadyRaised := by
  unfold State.rangingWindow; repeat' split
  all_goals simp
@[simp] theorem State.rangingWindow_light (a : Aim) (w : WindowReport) : (s.rangingWindow a w).light = s.light := by
  unfold State.rangingWindow; repeat' split
  all_goals simp
@[simp] theorem State.rangingWindow_config (a : Aim) (w : WindowReport) : (s.rangingWindow a w).config = s.config := by
  unfold State.rangingWindow; repeat' split
  all_goals simp
@[simp] theorem State.rangingWindow_line (a : Aim) (w : WindowReport) : (s.rangingWindow a w).line = s.line := by
  unfold State.rangingWindow; repeat' split
  all_goals simp
@[simp] theorem State.rangingWindow_peers (a : Aim) (w : WindowReport) : (s.rangingWindow a w).peers = s.peers := by
  unfold State.rangingWindow; repeat' split
  all_goals simp
@[simp] theorem State.rangingWindow_link (a : Aim) (w : WindowReport) : (s.rangingWindow a w).link = s.link := by
  unfold State.rangingWindow; repeat' split
  all_goals simp
@[simp] theorem State.rangingWindow_choices (a : Aim) (w : WindowReport) :
    (s.rangingWindow a w).choices = s.choices := by
  unfold State.rangingWindow; repeat' split
  all_goals simp
@[simp] theorem State.rangingWindow_pending (a : Aim) (w : WindowReport) :
    (s.rangingWindow a w).pending = s.pending := by
  unfold State.rangingWindow; repeat' split
  all_goals simp

/-! ### `State.trackingWindow` -/

@[simp] theorem State.trackingWindow_clock (a : Aim) (w : WindowReport) : (s.trackingWindow a w).clock = s.clock := by
  unfold State.trackingWindow; repeat' split
  all_goals simp
@[simp] theorem State.trackingWindow_fine (a : Aim) (w : WindowReport) : (s.trackingWindow a w).fine = s.fine := by
  unfold State.trackingWindow; repeat' split
  all_goals simp
@[simp] theorem State.trackingWindow_setup (a : Aim) (w : WindowReport) : (s.trackingWindow a w).setup = s.setup := by
  unfold State.trackingWindow; repeat' split
  all_goals simp
@[simp] theorem State.trackingWindow_decayDue (a : Aim) (w : WindowReport) :
    (s.trackingWindow a w).decayDue = s.decayDue := by
  unfold State.trackingWindow; repeat' split
  all_goals simp
@[simp] theorem State.trackingWindow_axesReadyRaised (a : Aim) (w : WindowReport) :
    (s.trackingWindow a w).axesReadyRaised = s.axesReadyRaised := by
  unfold State.trackingWindow; repeat' split
  all_goals simp
@[simp] theorem State.trackingWindow_config (a : Aim) (w : WindowReport) :
    (s.trackingWindow a w).config = s.config := by
  unfold State.trackingWindow; repeat' split
  all_goals simp
@[simp] theorem State.trackingWindow_peers (a : Aim) (w : WindowReport) : (s.trackingWindow a w).peers = s.peers := by
  unfold State.trackingWindow; repeat' split
  all_goals simp
@[simp] theorem State.trackingWindow_choices (a : Aim) (w : WindowReport) :
    (s.trackingWindow a w).choices = s.choices := by
  unfold State.trackingWindow; repeat' split
  all_goals simp
@[simp] theorem State.trackingWindow_pending (a : Aim) (w : WindowReport) :
    (s.trackingWindow a w).pending = s.pending := by
  unfold State.trackingWindow; repeat' split
  all_goals simp

/-! ### `State.takeWindow` -/

@[simp] theorem State.takeWindow_clock (w : WindowReport) : (s.takeWindow w).clock = s.clock := by
  unfold State.takeWindow; repeat' split
  all_goals simp
@[simp] theorem State.takeWindow_fine (w : WindowReport) : (s.takeWindow w).fine = s.fine := by
  unfold State.takeWindow; repeat' split
  all_goals simp
@[simp] theorem State.takeWindow_setup (w : WindowReport) : (s.takeWindow w).setup = s.setup := by
  unfold State.takeWindow; repeat' split
  all_goals simp
@[simp] theorem State.takeWindow_decayDue (w : WindowReport) : (s.takeWindow w).decayDue = s.decayDue := by
  unfold State.takeWindow; repeat' split
  all_goals simp
@[simp] theorem State.takeWindow_axesReadyRaised (w : WindowReport) :
    (s.takeWindow w).axesReadyRaised = s.axesReadyRaised := by
  unfold State.takeWindow; repeat' split
  all_goals simp
@[simp] theorem State.takeWindow_config (w : WindowReport) : (s.takeWindow w).config = s.config := by
  unfold State.takeWindow; repeat' split
  all_goals simp
@[simp] theorem State.takeWindow_peers (w : WindowReport) : (s.takeWindow w).peers = s.peers := by
  unfold State.takeWindow; repeat' split
  all_goals simp
@[simp] theorem State.takeWindow_choices (w : WindowReport) : (s.takeWindow w).choices = s.choices := by
  unfold State.takeWindow; repeat' split
  all_goals simp
@[simp] theorem State.takeWindow_pending (w : WindowReport) : (s.takeWindow w).pending = s.pending := by
  unfold State.takeWindow; repeat' split
  all_goals simp

/-! ### `State.suspendAim` -/

@[simp] theorem State.suspendAim_clock : (s.suspendAim).clock = s.clock := by
  unfold State.suspendAim; repeat' split
  all_goals simp
@[simp] theorem State.suspendAim_fine : (s.suspendAim).fine = s.fine := by
  unfold State.suspendAim; repeat' split
  all_goals simp
@[simp] theorem State.suspendAim_setup : (s.suspendAim).setup = s.setup := by
  unfold State.suspendAim; repeat' split
  all_goals simp
@[simp] theorem State.suspendAim_sectors : (s.suspendAim).sectors = s.sectors := by
  unfold State.suspendAim; repeat' split
  all_goals simp
@[simp] theorem State.suspendAim_decayDue : (s.suspendAim).decayDue = s.decayDue := by
  unfold State.suspendAim; repeat' split
  all_goals simp
@[simp] theorem State.suspendAim_forced : (s.suspendAim).forced = s.forced := by
  unfold State.suspendAim; repeat' split
  all_goals simp
@[simp] theorem State.suspendAim_hz : (s.suspendAim).hz = s.hz := by
  unfold State.suspendAim; repeat' split
  all_goals simp
@[simp] theorem State.suspendAim_vt : (s.suspendAim).vt = s.vt := by
  unfold State.suspendAim; repeat' split
  all_goals simp
@[simp] theorem State.suspendAim_axesReadyRaised : (s.suspendAim).axesReadyRaised = s.axesReadyRaised := by
  unfold State.suspendAim; repeat' split
  all_goals simp
@[simp] theorem State.suspendAim_config : (s.suspendAim).config = s.config := by
  unfold State.suspendAim; repeat' split
  all_goals simp
@[simp] theorem State.suspendAim_peers : (s.suspendAim).peers = s.peers := by
  unfold State.suspendAim; repeat' split
  all_goals simp
@[simp] theorem State.suspendAim_choices : (s.suspendAim).choices = s.choices := by
  unfold State.suspendAim; repeat' split
  all_goals simp
@[simp] theorem State.suspendAim_pending : (s.suspendAim).pending = s.pending := by
  unfold State.suspendAim; repeat' split
  all_goals simp

/-! ### `State.resumeAim` -/

@[simp] theorem State.resumeAim_clock (u : Suspension) (r : TargetRecord) (d : Direction) :
    (s.resumeAim u r d).clock = s.clock := by
  unfold State.resumeAim; repeat' split
  all_goals simp
@[simp] theorem State.resumeAim_fine (u : Suspension) (r : TargetRecord) (d : Direction) :
    (s.resumeAim u r d).fine = s.fine := by
  unfold State.resumeAim; repeat' split
  all_goals simp
@[simp] theorem State.resumeAim_setup (u : Suspension) (r : TargetRecord) (d : Direction) :
    (s.resumeAim u r d).setup = s.setup := by
  unfold State.resumeAim; repeat' split
  all_goals simp
@[simp] theorem State.resumeAim_table (u : Suspension) (r : TargetRecord) (d : Direction) :
    (s.resumeAim u r d).table = s.table := by
  unfold State.resumeAim; repeat' split
  all_goals simp
@[simp] theorem State.resumeAim_sectors (u : Suspension) (r : TargetRecord) (d : Direction) :
    (s.resumeAim u r d).sectors = s.sectors := by
  unfold State.resumeAim; repeat' split
  all_goals simp
@[simp] theorem State.resumeAim_decayDue (u : Suspension) (r : TargetRecord) (d : Direction) :
    (s.resumeAim u r d).decayDue = s.decayDue := by
  unfold State.resumeAim; repeat' split
  all_goals simp
@[simp] theorem State.resumeAim_forced (u : Suspension) (r : TargetRecord) (d : Direction) :
    (s.resumeAim u r d).forced = s.forced := by
  unfold State.resumeAim; repeat' split
  all_goals simp
@[simp] theorem State.resumeAim_axesReadyRaised (u : Suspension) (r : TargetRecord) (d : Direction) :
    (s.resumeAim u r d).axesReadyRaised = s.axesReadyRaised := by
  unfold State.resumeAim; repeat' split
  all_goals simp
@[simp] theorem State.resumeAim_config (u : Suspension) (r : TargetRecord) (d : Direction) :
    (s.resumeAim u r d).config = s.config := by
  unfold State.resumeAim; repeat' split
  all_goals simp
@[simp] theorem State.resumeAim_line (u : Suspension) (r : TargetRecord) (d : Direction) :
    (s.resumeAim u r d).line = s.line := by
  unfold State.resumeAim; repeat' split
  all_goals simp
@[simp] theorem State.resumeAim_peers (u : Suspension) (r : TargetRecord) (d : Direction) :
    (s.resumeAim u r d).peers = s.peers := by
  unfold State.resumeAim; repeat' split
  all_goals simp
@[simp] theorem State.resumeAim_link (u : Suspension) (r : TargetRecord) (d : Direction) :
    (s.resumeAim u r d).link = s.link := by
  unfold State.resumeAim; repeat' split
  all_goals simp
@[simp] theorem State.resumeAim_choices (u : Suspension) (r : TargetRecord) (d : Direction) :
    (s.resumeAim u r d).choices = s.choices := by
  unfold State.resumeAim; repeat' split
  all_goals simp
@[simp] theorem State.resumeAim_pending (u : Suspension) (r : TargetRecord) (d : Direction) :
    (s.resumeAim u r d).pending = s.pending := by
  unfold State.resumeAim; repeat' split
  all_goals simp

/-! ### `State.tryResume` -/

@[simp] theorem State.tryResume_clock : (s.tryResume).clock = s.clock := by
  unfold State.tryResume; repeat' split
  all_goals simp
@[simp] theorem State.tryResume_fine : (s.tryResume).fine = s.fine := by
  unfold State.tryResume; repeat' split
  all_goals simp
@[simp] theorem State.tryResume_setup : (s.tryResume).setup = s.setup := by
  unfold State.tryResume; repeat' split
  all_goals simp
@[simp] theorem State.tryResume_decayDue : (s.tryResume).decayDue = s.decayDue := by
  unfold State.tryResume; repeat' split
  all_goals simp
@[simp] theorem State.tryResume_axesReadyRaised : (s.tryResume).axesReadyRaised = s.axesReadyRaised := by
  unfold State.tryResume; repeat' split
  all_goals simp
@[simp] theorem State.tryResume_config : (s.tryResume).config = s.config := by
  unfold State.tryResume; repeat' split
  all_goals simp
@[simp] theorem State.tryResume_peers : (s.tryResume).peers = s.peers := by
  unfold State.tryResume; repeat' split
  all_goals simp
@[simp] theorem State.tryResume_choices : (s.tryResume).choices = s.choices := by
  unfold State.tryResume; repeat' split
  all_goals simp
@[simp] theorem State.tryResume_pending : (s.tryResume).pending = s.pending := by
  unfold State.tryResume; repeat' split
  all_goals simp

/-! ### `State.holdBegins` -/

@[simp] theorem State.holdBegins_clock : (s.holdBegins).clock = s.clock := by
  unfold State.holdBegins; simp
@[simp] theorem State.holdBegins_fine : (s.holdBegins).fine = s.fine := by
  unfold State.holdBegins; simp
@[simp] theorem State.holdBegins_setup : (s.holdBegins).setup = s.setup := by
  unfold State.holdBegins; simp
@[simp] theorem State.holdBegins_sectors : (s.holdBegins).sectors = s.sectors := by
  unfold State.holdBegins; simp
@[simp] theorem State.holdBegins_decayDue : (s.holdBegins).decayDue = s.decayDue := by
  unfold State.holdBegins; simp
@[simp] theorem State.holdBegins_forced : (s.holdBegins).forced = s.forced := by
  unfold State.holdBegins; simp
@[simp] theorem State.holdBegins_axesReadyRaised : (s.holdBegins).axesReadyRaised = s.axesReadyRaised := by
  unfold State.holdBegins; simp
@[simp] theorem State.holdBegins_config : (s.holdBegins).config = s.config := by
  unfold State.holdBegins; simp
@[simp] theorem State.holdBegins_peers : (s.holdBegins).peers = s.peers := by
  unfold State.holdBegins; simp
@[simp] theorem State.holdBegins_choices : (s.holdBegins).choices = s.choices := by
  unfold State.holdBegins; simp
@[simp] theorem State.holdBegins_pending : (s.holdBegins).pending = s.pending := by
  unfold State.holdBegins; simp

/-! ### `State.holdEnds` -/

@[simp] theorem State.holdEnds_clock : (s.holdEnds).clock = s.clock := by
  unfold State.holdEnds; simp
@[simp] theorem State.holdEnds_fine : (s.holdEnds).fine = s.fine := by
  unfold State.holdEnds; simp
@[simp] theorem State.holdEnds_setup : (s.holdEnds).setup = s.setup := by
  unfold State.holdEnds; simp
@[simp] theorem State.holdEnds_decayDue : (s.holdEnds).decayDue = s.decayDue := by
  unfold State.holdEnds; simp
@[simp] theorem State.holdEnds_axesReadyRaised : (s.holdEnds).axesReadyRaised = s.axesReadyRaised := by
  unfold State.holdEnds; simp
@[simp] theorem State.holdEnds_config : (s.holdEnds).config = s.config := by
  unfold State.holdEnds; simp
@[simp] theorem State.holdEnds_peers : (s.holdEnds).peers = s.peers := by
  unfold State.holdEnds; simp
@[simp] theorem State.holdEnds_choices : (s.holdEnds).choices = s.choices := by
  unfold State.holdEnds; simp
@[simp] theorem State.holdEnds_pending : (s.holdEnds).pending = s.pending := by
  unfold State.holdEnds; simp

/-! ### `State.signalHold` -/

@[simp] theorem State.signalHold_clock (b : Bool) : (s.signalHold b).clock = s.clock := by
  unfold State.signalHold; repeat' split
  all_goals simp
@[simp] theorem State.signalHold_fine (b : Bool) : (s.signalHold b).fine = s.fine := by
  unfold State.signalHold; repeat' split
  all_goals simp
@[simp] theorem State.signalHold_setup (b : Bool) : (s.signalHold b).setup = s.setup := by
  unfold State.signalHold; repeat' split
  all_goals simp
@[simp] theorem State.signalHold_decayDue (b : Bool) : (s.signalHold b).decayDue = s.decayDue := by
  unfold State.signalHold; repeat' split
  all_goals simp
@[simp] theorem State.signalHold_axesReadyRaised (b : Bool) : (s.signalHold b).axesReadyRaised = s.axesReadyRaised := by
  unfold State.signalHold; repeat' split
  all_goals simp
@[simp] theorem State.signalHold_config (b : Bool) : (s.signalHold b).config = s.config := by
  unfold State.signalHold; repeat' split
  all_goals simp
@[simp] theorem State.signalHold_peers (b : Bool) : (s.signalHold b).peers = s.peers := by
  unfold State.signalHold; repeat' split
  all_goals simp
@[simp] theorem State.signalHold_choices (b : Bool) : (s.signalHold b).choices = s.choices := by
  unfold State.signalHold; repeat' split
  all_goals simp
@[simp] theorem State.signalHold_pending (b : Bool) : (s.signalHold b).pending = s.pending := by
  unfold State.signalHold; repeat' split
  all_goals simp

/-! ### `State.settled` -/

@[simp] theorem State.settled_clock (ax : Axis) : (s.settled ax).clock = s.clock := by
  unfold State.settled; dsimp only; repeat' split
  all_goals simp
@[simp] theorem State.settled_fine (ax : Axis) : (s.settled ax).fine = s.fine := by
  unfold State.settled; dsimp only; repeat' split
  all_goals simp
@[simp] theorem State.settled_setup (ax : Axis) : (s.settled ax).setup = s.setup := by
  unfold State.settled; dsimp only; repeat' split
  all_goals simp
@[simp] theorem State.settled_decayDue (ax : Axis) : (s.settled ax).decayDue = s.decayDue := by
  unfold State.settled; dsimp only; repeat' split
  all_goals simp
@[simp] theorem State.settled_config (ax : Axis) : (s.settled ax).config = s.config := by
  unfold State.settled; dsimp only; repeat' split
  all_goals simp
@[simp] theorem State.settled_peers (ax : Axis) : (s.settled ax).peers = s.peers := by
  unfold State.settled; dsimp only; repeat' split
  all_goals simp
@[simp] theorem State.settled_choices (ax : Axis) : (s.settled ax).choices = s.choices := by
  unfold State.settled; dsimp only; repeat' split
  all_goals simp
@[simp] theorem State.settled_pending (ax : Axis) : (s.settled ax).pending = s.pending := by
  unfold State.settled; dsimp only; repeat' split
  all_goals simp

end Sys2Proof.Machine
end

