-- ==== Sys2Proof/Laws/Ops.lean ====
section
/-! SUPPORT. What each shared operation on the whole State can do, said once. What it leaves unchanged is in
Laws/Frames.lean. -/

namespace Sys2Proof.Machine

open Sys2Proof

variable (s : State)

/-! ### The emitter -/

/-- The emitter follows its conditions, which it is no part of (R128, R129). -/
theorem State.followLight_consistent : s.followLight.lightConsistent := by
  unfold State.lightConsistent State.followLight
  split
  · rename_i h
    split
    · rename_i i he
      rw [he, h]; rfl
    · exact h.symm
  · rename_i h
    have : s.lightAllowed = false := by simpa using h
    exact this.symm

/-- In a state whose emitter already stands as R128 says, nothing changes. -/
theorem State.followLight_of_consistent (h : s.lightConsistent) : s.followLight = s ∨
    s.followLight = { s with light := { s.light with emitter := .off } } ∧ s.light.emitter = .off := by
  unfold State.lightConsistent at h
  unfold State.followLight
  split
  · rename_i ha
    rw [ha] at h
    cases he : s.light.emitter with
    | off => rw [he] at h; cases h
    | on i => exact .inl rfl
  · rename_i ha
    have ha' : s.lightAllowed = false := by simpa using ha
    rw [ha'] at h
    cases he : s.light.emitter with
    | off => exact .inr ⟨rfl, rfl⟩
    | on i => rw [he] at h; cases h

/-- In a consistent state the emitter stays as it is. -/
theorem State.followLight_eq (h : s.lightConsistent) : s.followLight = s := by
  rcases s.followLight_of_consistent h with e | ⟨e, ho⟩
  · exact e
  · rw [e, ← ho]

/-! ### The engine's state -/

/-- The engine after an entry (R73). -/
theorem State.enter_engine (e : EngineState) : (s.enter e).engine = { s.engine with state := e, dwelling := false } := by
  unfold State.enter
  dsimp only
  repeat' split
  all_goals rfl

@[simp] theorem State.enter_state (e : EngineState) : (s.enter e).engine.state = e := by rw [State.enter_engine]
@[simp] theorem State.enter_aim (e : EngineState) : (s.enter e).engine.aim = s.engine.aim := by rw [State.enter_engine]
@[simp] theorem State.enter_openObs (e : EngineState) : (s.enter e).engine.openObs = s.engine.openObs := by
  rw [State.enter_engine]
@[simp] theorem State.enter_suspension (e : EngineState) : (s.enter e).engine.suspension = s.engine.suspension := by
  rw [State.enter_engine]

/-- A window is in progress after the entry to a window state, and none after the entry to any other (R130). -/
theorem State.enter_window (e : EngineState) : (s.enter e).light.window.isSome = e.makesWindows := by
  unfold State.enter
  simp only
  repeat' split
  all_goals simp_all [State.beginWindow, State.dropWindow]

/-! ### The site line and the queue of observations -/

/-- A break request begins a break of 48 bit times, or finds one in progress (R157). -/
theorem State.requestBreak_cases :
    (∃ t, s.line.transmitter = .sendingBreak t ∧ s.requestBreak = s) ∨
      s.requestBreak.line.transmitter = .sendingBreak (s.instant + 48 * finePerBit) := by
  unfold State.requestBreak
  split
  · exact .inl ⟨_, ‹_›, rfl⟩
  · exact .inr rfl

/-- A character that leaves the line at mark writes the idle count's start and nothing else (R154). -/
theorem State.atMarkFrom_eq (t : Nat) :
    s.atMarkFrom t = { s with line := { s.line with idleFrom := s.markFrom t } } := by
  unfold State.atMarkFrom State.markFrom
  repeat' split
  all_goals first | rfl | simp_all

/-- The part's own break, 24 bit times long, stands as a BREAK_BEGIN of its own (R149, R157). -/
theorem State.ownBreakHeard_stands (h : s.ownBreakHeard = true) : Instr.breakBegin ∈ s.outstanding := by
  unfold State.outstanding
  simp only [List.mem_append, h, whenOn, if_true, List.mem_singleton, true_or, or_true]

/-- Its first 11 bit times stand as a framing error while a frame is received (R142, R149). -/
theorem State.ownFramingError_stands (h : s.ownFramingError = true) :
    Instr.receiveCharacter .framingError ∈ s.outstanding := by
  unfold State.outstanding
  simp only [List.mem_append, h, whenOn, if_true, List.mem_singleton, true_or, or_true]

/-- Its end stands as a BREAK_RELEASE (R157). -/
theorem State.breakDone_stands (h : s.breakDone = true) : Instr.breakRelease ∈ s.outstanding := by
  unfold State.outstanding
  simp only [List.mem_append, h, whenOn, if_true, List.mem_singleton, true_or, or_true]

/-- The end of a break leaves the hold in force, under the hold deadline (R169, R170). -/
@[simp] theorem State.breakOver_held : s.breakOver.held = true := by simp [State.held, State.breakOver]

/-- The end of a break signals nothing: the hold goes on (R169, R170). -/
theorem State.withHold_breakOver (h : s.line.receiver = .break) : s.withHold State.breakOver = s.breakOver := by
  have hs : s.held = true := by simp [State.held, h]
  simp [State.withHold, State.signalHold, hs]

/-- The release of the part's break (R149, R157): with the receiver in BREAK it ends the break, or another station holds
the line on. -/
theorem State.releaseBreak_cases :
    (s.line.receiver ≠ .break ∧
        s.releaseBreak = { s with line := { s.line.rest with idleFrom := some s.instant } }) ∨
      (s.line.receiver = .break ∧ Config.otherBreak s.choices = true ∧
        s.releaseBreak = { s with line := { s.line.rest with idleFrom := none }, choices := s.choices + 1 }) ∨
      (s.line.receiver = .break ∧ Config.otherBreak s.choices = false ∧
        s.releaseBreak = { s with
          line := { s.line.rest with receiver := .idle, idleFrom := some s.instant }
          peers := { s.peers with holdDeadline := some (s.clock + 3000) }
          choices := s.choices + 1 }) := by
  unfold State.releaseBreak
  dsimp only
  split
  · split
    · exact .inr (.inl ⟨‹_›, ‹_›, rfl⟩)
    · refine .inr (.inr ⟨‹_›, by simp_all, ?_⟩)
      rcases hq : s.line.queue with _ | ⟨f, fs⟩ <;> simp [State.breakOver, State.tookChoice, SiteLine.rest, State.instant, hq]
  · exact .inl ⟨‹_›, rfl⟩

/-- The release of the part's break signals nothing: the hold stands after it as before (R169). -/
@[simp] theorem State.releaseBreak_held : s.releaseBreak.held = s.held := by
  rcases s.releaseBreak_cases with ⟨_, h⟩ | ⟨hb, _, h⟩ | ⟨hb, _, h⟩ <;> rw [h] <;> simp_all [State.held, SiteLine.rest]

@[simp] theorem State.giveObservation_slot (o : Observation) : (s.giveObservation o).link.slot = s.link.slot := by
  unfold State.giveObservation
  split
  · simp only
    split <;> rfl
  · rfl

/-- The queue grows by the observation while it holds fewer than 16, and else stays (R185). -/
theorem State.giveObservation_queue (o : Observation) :
    (s.giveObservation o).link.observations =
      if s.link.observations.length < 16 then s.link.observations ++ [o] else s.link.observations := by
  unfold State.giveObservation
  split
  · simp only
    split <;> rfl
  · rfl

/-! ### Observations closed -/

@[simp] theorem State.closeObservation_openObs (range : Option Nat) (offers : Bool) :
    (s.closeObservation range offers).engine.openObs = none := by
  unfold State.closeObservation
  split
  · assumption
  · dsimp only
    repeat' split
    all_goals simp [State.dropOpen]

/-- A closing changes neither the engine's state nor its suspend record. -/
@[simp] theorem State.closeObservation_state (range : Option Nat) (offers : Bool) :
    (s.closeObservation range offers).engine.state = s.engine.state := by
  unfold State.closeObservation
  split
  · rfl
  · dsimp only
    repeat' split
    all_goals simp [State.dropOpen]

/-! ### The hold -/

/-- Whether the hold is in force depends on its three sources alone (R169). -/
theorem State.held_congr {s t : State} (hp : t.peers = s.peers) (hr : t.line.receiver = s.line.receiver) :
    t.held = s.held := by
  unfold State.held
  rw [hp, hr]

/-- A change of the sources signals a start, an end, or nothing (R169, R173). -/
theorem State.signalHold_cases (before : Bool) :
    before = false ∧ s.held = true ∧ s.signalHold before = s.holdBegins ∨
      before = true ∧ s.held = false ∧ s.signalHold before = s.holdEnds ∨
        before = s.held ∧ s.signalHold before = s := by
  unfold State.signalHold
  cases before <;> cases s.held <;> simp

/-- A selection is made in WAITING with no hold in force, and otherwise nothing happens (R57). -/
theorem State.select_cases :
    s.engine.state = .waiting ∧ s.held = false ∧ s.select = s.selection ∨ s.select = s := by
  unfold State.select
  split
  · rename_i h; exact .inl ⟨h.1, h.2, rfl⟩
  · exact .inr rfl

/-- A fault is discarded in FAULT; otherwise it is taken, raised and reported (R120). -/
theorem State.faultDrive_cases (ax : Axis) (code : FaultCode) :
    (s.drive ax).state = .fault ∧ s.faultDrive ax code = s ∨
      (s.drive ax).state ≠ .fault ∧
        s.faultDrive ax code = ((s.onDrive ax (Drive.takeFault code)).raise .axisFault).engineFault ax := by
  unfold State.faultDrive
  split
  · exact .inl ⟨‹_›, rfl⟩
  · exact .inr ⟨‹_›, rfl⟩

/-! ### Host commands -/

/-- Every way a host command is taken (R178, R180). -/
theorem State.takeCommand_cases {α : Type} (c : CommandCode) (args : Option α) (rule : α → State → Taken) :
    s.link.slot.isSome = true ∧ s.takeCommand c args rule = s.respond c.number (.refused .sequenceError) ∨
      s.link.slot = none ∧ args = none ∧ s.takeCommand c args rule = s.respond c.number (lengthRefusal c) ∨
        s.link.slot = none ∧ args.isSome = true ∧ c.needsConfigure = true ∧ s.config = none ∧
            s.takeCommand c args rule = s.respond c.number (.refused .notConfigured) ∨
          ∃ a, s.link.slot = none ∧ args = some a ∧ (c.needsConfigure = true → s.config ≠ none) ∧
            s.takeCommand c args rule = (rule a s).state.respond c.number (rule a s).answer := by
  unfold State.takeCommand
  split
  · rename_i h
    exact .inl ⟨h, rfl⟩
  · rename_i h
    have hs : s.link.slot = none := by simpa using h
    split
    · exact .inr (.inl ⟨hs, rfl, rfl⟩)
    · split
      · rename_i a h2
        exact .inr (.inr (.inl ⟨hs, rfl, h2.1, h2.2, rfl⟩))
      · rename_i a h2
        exact .inr (.inr (.inr ⟨a, hs, rfl, fun hc he => h2 ⟨hc, he⟩, rfl⟩))

/-- A command taken with the slot EMPTY, its length right and the part configured as it needs, is answered by its own
rule. -/
theorem State.takeCommand_accepted {α : Type} (c : CommandCode) (a : α) (rule : α → State → Taken)
    (hs : s.link.slot = none) (hc : c.needsConfigure = true → s.config.isSome = true) :
    s.takeCommand c (some a) rule = (rule a s).state.respond c.number (rule a s).answer := by
  unfold State.takeCommand
  rw [hs]
  simp only [Option.isSome_none, Bool.false_eq_true, if_false]
  split
  · rename_i h
    have := hc h.1
    rw [h.2] at this
    cases this
  · rfl

end Sys2Proof.Machine
end

