-- ==== Sys2Proof/Laws/Endings.lean ====
section
/-! SUPPORT. What the closing of an observation, the ending of an aim and a stop leave, each said once. -/

namespace Sys2Proof.Machine

open Sys2Proof

/-- An observation closed without a distance changes the table, the open observation, the queue and its two events, and
nothing else. -/
theorem State.closeObservation_none_frame (s : State) (b : Bool) : s.closeObservation none b =
    { s with
      table := (s.closeObservation none b).table
      engine := { s.engine with openObs := none }
      link := { s.link with
        observations := (s.closeObservation none b).link.observations
        events := { s.link.events with
          observation := (s.closeObservation none b).link.events.observation
          queueFull := (s.closeObservation none b).link.events.queueFull } } } := by
  unfold State.closeObservation
  cases h : s.engine.openObs with
  | none => dsimp only; rw [← h]
  | some o =>
    dsimp only [closingOf, Option.isSome_none]
    cases b <;> simp only [Bool.false_eq_true, if_false, if_true]
    · unfold State.giveObservation; split
      · dsimp only; split <;> rfl
      · rfl
    · have key : ∀ (u : State) (g : Option Grid),
          u.offerClosedFix o .angleOnly g = { u with table := (u.offerClosedFix o .angleOnly g).table } := by
        intro u g
        unfold State.offerClosedFix
        cases g with
        | none => rfl
        | some g =>
          dsimp only
          unfold State.offerOwnFix
          split
          · rfl
          · split
            · rfl
            · split
              · rfl
              · split
                · rename_i hh; exact absurd (show (6 : Nat) = 15 from hh.1) (by decide)
                · rfl
      rw [key]
      unfold State.giveObservation; split
      · dsimp only; split <;> rfl
      · rfl

/-- A record keeps its state, its due time, its misses and its outcome when an observation is closed without a distance. -/
theorem State.closeObservation_none_record (s : State) (b : Bool) (i : Nat) (r : TargetRecord) (h : s.table[i]? = some (some r)) :
   ∃ q, (s.closeObservation none b).table[i]? = some (some q) ∧ q.due = r.due ∧
     q.misses = r.misses ∧ q.lost = r.lost ∧ q.lastOutcome = r.lastOutcome ∧ q.deferUntil = r.deferUntil ∧
     q.state = r.state := by
  unfold State.closeObservation
  cases ho : s.engine.openObs with
  | none => exact ⟨r, h, rfl, rfl, rfl, rfl, rfl, rfl⟩
  | some o =>
    dsimp only [closingOf, Option.isSome_none]
    have hg : ∀ x : Observation, (s.dropOpen.giveObservation x).table = s.table := by
      intro x; unfold State.giveObservation; split
      · dsimp only; split <;> rfl
      · rfl
    cases b <;> simp only [Bool.false_eq_true, if_false, if_true]
    · exact ⟨r, by rw [hg]; exact h, rfl, rfl, rfl, rfl, rfl, rfl⟩
    · generalize hu : s.dropOpen.giveObservation _ = u
      have hut : u.table[i]? = some (some r) := by rw [← hu, hg]; exact h
      unfold State.offerClosedFix
      split
      · unfold State.offerOwnFix
        split
        · exact ⟨r, hut, rfl, rfl, rfl, rfl, rfl, rfl⟩
        · rename_i k hk
          split
          · exact ⟨r, hut, rfl, rfl, rfl, rfl, rfl, rfl⟩
          · rename_i q hq
            split
            · exact ⟨r, hut, rfl, rfl, rfl, rfl, rfl, rfl⟩
            · rename_i q' hq'
              rw [if_neg (fun hh => absurd (show (6 : Nat) = 15 from hh.1) (by decide))]
              simp only [State.setRecord, List.getElem?_set]
              split
              · rename_i e; subst e
                have hlt : k < u.table.length := by
                  by_contra hh; rw [List.getElem?_eq_none (by omega)] at hut; cases hut
                rw [if_pos hlt]
                have hqr : q = r := by unfold State.record at hq; rw [hut] at hq; exact (Option.some.inj hq).symm
                subst hqr
                refine ⟨q', rfl, ?_⟩
                unfold TargetRecord.takeFix at hq'
                split at hq'
                · cases hq'; simp
                · split at hq'
                  · cases hq'; simp
                  · cases hq'
              · exact ⟨r, hut, rfl, rfl, rfl, rfl, rfl, rfl⟩
      · exact ⟨r, hut, rfl, rfl, rfl, rfl, rfl, rfl⟩

/-- What a stop request does to a drive (R116). -/
theorem Drive.stop_stopped (ax) (d : Drive) : DriveStopped ax d (d.stop ax) := by
  unfold DriveStopped Drive.stop
  split <;> simp_all

/-- The emitter is all that follows R128. -/
theorem State.followLight_frame (s : State) :
    s.followLight = { s with light := { s.light with emitter := s.followLight.light.emitter } } := by
  unfold State.followLight
  dsimp only
  split
  · split <;> rfl
  · rfl

/-- Where a condition of R128 fails, the emitter is OFF. -/
theorem State.followLight_dark (s : State) (h : s.lightAllowed = false) : s.followLight.light.emitter = .off := by
  unfold State.followLight; simp [h]

/-- An ending that changes no block count changes the table and the engine alone, when nothing is open. -/
theorem State.finishAim_frame (s : State) (ho : s.engine.openObs = none) (o : AimOutcome)
    (hno : o = .faulted ∨ o = .aborted ∨ o = .abandoned) :
   s.finishAim o none = { s with
     table := (s.finishAim o none).table
     engine := { s.engine with aim := none, suspension := none } } := by
  have hb : ∀ e : Sector, { e with block := blockAfter o e.block } = e := by rcases hno with rfl | rfl | rfl <;> intro e <;> rfl
  have hl : ∀ r, raisesLost o r = false := by rcases hno with rfl | rfl | rfl <;> intro e <;> rfl
  unfold State.finishAim
  have hc : s.closeObservation none true = s := by unfold State.closeObservation; rw [ho]
  rw [hc]
  dsimp only
  split
  · rfl
  · rename_i a ha
    unfold State.writeBlock State.changeBlock State.writeOutcome
    simp only [hl, Bool.false_eq_true, if_false]
    cases hr : s.record a.slot <;> cases a.sector <;> simp only [State.discardAim, State.setRecord, hb] <;>
      (try rw [show (fun e : Sector => e) = id from rfl, List.modify_id])

/-- The engine STOPPED: no window and no light. -/
theorem State.enter_stopped (s : State) : s.enter .stopped = { s with
    engine := { s.engine with state := .stopped, dwelling := false }
    light := { s.light with window := none, emitter := .off } } := by
  unfold State.enter State.dropWindow
  simp [EngineState.makesWindows, Engine.wantsLight]

end Sys2Proof.Machine
end

