-- ==== Sys2Proof/Laws/PerInstr.lean ====
section
/-! SUPPORT. Facts about every command as syntax, one lemma per constructor. -/

namespace Sys2Proof.Laws.Framing

open Sys2Proof

/-- A transfer carries the command exactly when the command has a command byte, and that byte is then its first
(R177, R195). -/
def Statement (i : Instr) : Prop :=
  (encodeTransfer i).map (fun bytes => bytes.head?.map BitVec.toNat) = i.commandByte.map some

/-- The first byte of a frame is the command's number (R195). -/
theorem commandFrame_head (c : Machine.CommandCode) (p : Option (List Byte)) :
    (commandFrame c p).head? = some (Byte.ofNat c.number) := by
  cases p <;> rfl

theorem powerOnReset (holdIn : Bool) : Statement (.powerOnReset holdIn) := rfl
theorem configure (args : Option ConfigureArgs) : Statement (.configure args) := by
  simp [Statement, encodeTransfer, Instr.commandByte, commandFrame_head, Machine.CommandCode.number]
theorem setStation (args : Option StationArgs) : Statement (.setStation args) := by
  simp [Statement, encodeTransfer, Instr.commandByte, commandFrame_head, Machine.CommandCode.number]
theorem loadTarget (args : Option LoadArgs) : Statement (.loadTarget args) := by
  simp [Statement, encodeTransfer, Instr.commandByte, commandFrame_head, Machine.CommandCode.number]
theorem editTarget (args : Option EditArgs) : Statement (.editTarget args) := by
  simp [Statement, encodeTransfer, Instr.commandByte, commandFrame_head, Machine.CommandCode.number]
theorem retireTarget (prism : Option Nat) : Statement (.retireTarget prism) := by
  simp [Statement, encodeTransfer, Instr.commandByte, commandFrame_head, Machine.CommandCode.number]
theorem readTarget (slot : Option Nat) : Statement (.readTarget slot) := by
  simp [Statement, encodeTransfer, Instr.commandByte, commandFrame_head, Machine.CommandCode.number]
theorem setSector (args : Option SectorArgs) : Statement (.setSector args) := by
  simp [Statement, encodeTransfer, Instr.commandByte, commandFrame_head, Machine.CommandCode.number]
theorem readSector (args : Option SectorRange) : Statement (.readSector args) := by
  simp [Statement, encodeTransfer, Instr.commandByte, commandFrame_head, Machine.CommandCode.number]
theorem run (fits : Bool) : Statement (.run fits) := by
  simp [Statement, encodeTransfer, Instr.commandByte, commandFrame_head, Machine.CommandCode.number]
theorem pause (fits : Bool) : Statement (.pause fits) := by
  simp [Statement, encodeTransfer, Instr.commandByte, commandFrame_head, Machine.CommandCode.number]
theorem aimNow (prism : Option Nat) : Statement (.aimNow prism) := by
  simp [Statement, encodeTransfer, Instr.commandByte, commandFrame_head, Machine.CommandCode.number]
theorem range (args : Option RangeArgs) : Statement (.range args) := by
  simp [Statement, encodeTransfer, Instr.commandByte, commandFrame_head, Machine.CommandCode.number]
theorem takeObservation (fits : Bool) : Statement (.takeObservation fits) := by
  simp [Statement, encodeTransfer, Instr.commandByte, commandFrame_head, Machine.CommandCode.number]
theorem readStatus (fits : Bool) : Statement (.readStatus fits) := by
  simp [Statement, encodeTransfer, Instr.commandByte, commandFrame_head, Machine.CommandCode.number]
theorem readPeers (fits : Bool) : Statement (.readPeers fits) := by
  simp [Statement, encodeTransfer, Instr.commandByte, commandFrame_head, Machine.CommandCode.number]
theorem ackEvents (marks : Option EventSet) : Statement (.ackEvents marks) := by
  simp [Statement, encodeTransfer, Instr.commandByte, commandFrame_head, Machine.CommandCode.number]
theorem clearFault (axis : Option Nat) : Statement (.clearFault axis) := by
  simp [Statement, encodeTransfer, Instr.commandByte, commandFrame_head, Machine.CommandCode.number]
theorem siteHold (fits : Bool) : Statement (.siteHold fits) := by
  simp [Statement, encodeTransfer, Instr.commandByte, commandFrame_head, Machine.CommandCode.number]
theorem reset (fits : Bool) : Statement (.reset fits) := by
  simp [Statement, encodeTransfer, Instr.commandByte, commandFrame_head, Machine.CommandCode.number]
theorem unknownCommand (code : Byte) : Statement (.unknownCommand code) := rfl
theorem responseRead (count : Nat) : Statement (.responseRead count) := rfl
theorem dueTimeExpiry (slot : Nat) : Statement (.dueTimeExpiry slot) := rfl
theorem deferUntilExpiry (slot : Nat) : Statement (.deferUntilExpiry slot) := rfl
theorem arrived (axis : Axis) (raw : Int) : Statement (.arrived axis raw) := rfl
theorem fineArrival (axis : Axis) (raw : Int) : Statement (.fineArrival axis raw) := rfl
theorem windowEnd (hzRaw : Int) (vtRaw : Int) : Statement (.windowEnd hzRaw vtRaw) := rfl
theorem trackSample : Statement .trackSample := rfl
theorem trackDwellExpiry : Statement .trackDwellExpiry := rfl
theorem rangingWaitExpiry : Statement .rangingWaitExpiry := rfl
theorem blockDecay : Statement .blockDecay := rfl
theorem abandonDeadlineExpiry : Statement .abandonDeadlineExpiry := rfl
theorem settleEnd (axis : Axis) (raw : Int) : Statement (.settleEnd axis raw) := rfl
theorem indexEdge (axis : Axis) (rising : Bool) (raw : Int) (rest : Int) : Statement (.indexEdge axis rising raw rest) := rfl
theorem vtSeekReversal (raw : Int) : Statement (.vtSeekReversal raw) := rfl
theorem seekTravelExhausted (axis : Axis) (raw : Int) : Statement (.seekTravelExhausted axis raw) := rfl
theorem progressIntervalEnd (axis : Axis) (raw : Int) : Statement (.progressIntervalEnd axis raw) := rfl
theorem bridgeFaultInput (axis : Axis) (asserted : Bool) : Statement (.bridgeFaultInput axis asserted) := rfl
theorem vtLimitCrossing (raw : Int) : Statement (.vtLimitCrossing raw) := rfl
theorem hzSectorCrossing (raw : Int) : Statement (.hzSectorCrossing raw) := rfl
theorem returnPulse (pulse : Pulse) : Statement (.returnPulse pulse) := rfl
theorem identityCode (code : Nat) (done : Int) : Statement (.identityCode code done) := rfl
theorem receiveCharacter (char : LineChar) : Statement (.receiveCharacter char) := rfl
theorem frameEnd : Statement .frameEnd := rfl
theorem breakBegin : Statement .breakBegin := rfl
theorem breakEnd : Statement .breakEnd := rfl
theorem accessGapExpiry : Statement .accessGapExpiry := rfl
theorem echoCharacter (char : LineChar) : Statement (.echoCharacter char) := rfl
theorem echoTimeout : Statement .echoTimeout := rfl
theorem breakRelease : Statement .breakRelease := rfl
theorem peerRecordExpiry (entry : Nat) : Statement (.peerRecordExpiry entry) := rfl
theorem intentExpiry (entry : Nat) : Statement (.intentExpiry entry) := rfl
theorem presenceDeadline : Statement .presenceDeadline := rfl
theorem holdInRising : Statement .holdInRising := rfl
theorem holdInFalling : Statement .holdInFalling := rfl
theorem repeatDeadlineExpiry : Statement .repeatDeadlineExpiry := rfl
theorem holdDeadlineExpiry : Statement .holdDeadlineExpiry := rfl
theorem startBit : Statement .startBit := rfl

end Sys2Proof.Laws.Framing
end

