-- ==== Sys2Proof/Laws/Specs.lean ====
section
/-! SUPPORT. What each shared operation of the engine can do, said once in the words of Safety.lean: an offered frame, a
move, an adjustment, a closed observation, a hand-over, the end of an attempt, a search position. -/

namespace Sys2Proof.Machine

open Sys2Proof

/-! ### Values held in a range -/

theorem clampInt_eq (lo hi x : Int) (h : lo ≤ hi) : clampInt lo hi x = max lo (min hi x) := by
  unfold clampInt; split
  · omega
  · split <;> omega

theorem clampV_eq (v : Int) : clampV v = max 200000 (min 1800000 v) := clampInt_eq _ _ _ (by decide)

theorem targetInRange_hz (t : Int) : targetInRange .hz t = t % 4000000 := rfl

theorem targetInRange_vt (t : Int) : targetInRange .vt t = max 200000 (min 1800000 t) := clampV_eq t

/-- The grid range (R2, R193). -/
theorem gridInRange_iff (g : Grid) : gridInRange g = true ↔ (-10000000 ≤ g.e ∧ g.e ≤ 10000000) ∧
    (-10000000 ≤ g.n ∧ g.n ≤ 10000000) ∧ -10000000 ≤ g.h ∧ g.h ≤ 10000000 := by
  unfold gridInRange inGridRange; simp [and_assoc]

/-- The nominal position of a LOAD_TARGET or an EDIT_TARGET (R22, R25). -/
theorem nominalInRange_iff (n : Option Grid) : nominalInRange n = true ↔
    ∀ g, n = some g → (-10000000 ≤ g.e ∧ g.e ≤ 10000000) ∧ (-10000000 ≤ g.n ∧ g.n ≤ 10000000) ∧
      -10000000 ≤ g.h ∧ g.h ≤ 10000000 := by
  cases n with
  | none => simp [nominalInRange]
  | some g => simp [nominalInRange, gridInRange_iff]

/-! ### The drives -/

/-- What a move request does to a drive (R113). -/
theorem Drive.move_moved (ax : Axis) (now : Nat) (t : Int) (d : Drive) :
    DriveMoved ax now (targetInRange ax t) d (d.move ax now t) := by
  unfold Drive.move Drive.moveTo Drive.within
  constructor <;> intros <;> (try rcases ‹_ ∨ _› with h | h | h | h) <;>
    simp_all [AxisState.performs]

/-- What a fine adjustment does to a drive (R115). -/
theorem Drive.adjust_adjusted (ax : Axis) (t : Int) (d : Drive) :
    DriveAdjusted ax (targetInRange ax t) d (d.adjust ax t) := by
  unfold Drive.adjust DriveAdjusted Drive.within
  cases h : d.state.performs <;> simp

/-! ### Frames -/

theorem replaceFrame_ne_nil (f : Frame) (q : List Frame) (h : q ≠ []) : replaceFrame f q ≠ [] := by
  cases q with
  | nil => exact absurd rfl h
  | cons g gs => unfold replaceFrame; split <;> simp

theorem placeFrame_ne_nil (f : Frame) (q : List Frame) : placeFrame f q ≠ [] := by
  unfold placeFrame
  split
  · exact replaceFrame_ne_nil _ _ (by rintro rfl; simp_all)
  · split
    · simp
    · split
      · simp
      · rintro rfl; simp_all

/-- What an offer does (R152, R154). -/
theorem State.offerFrame_offered (f : Frame) (s : State) :
    s.offerFrame f = { s with line := s.line.offered f s.config.isSome } := by
  have hne : (placeFrame f s.line.queue).isEmpty = false := by
    cases h : placeFrame f s.line.queue with
    | nil => exact absurd h (placeFrame_ne_nil _ _)
    | cons => rfl
  unfold State.offerFrame SiteLine.offered SiteLine.rest
  by_cases h : s.line.listenOnly = true ∨ s.config = none
  · rw [if_pos h, if_neg]
    rcases h with h | h <;> simp [h]
  · rw [if_neg h, if_pos]
    · simp only [hne, Bool.false_eq_true, if_false]
      split
      · rfl
      · rfl
    · obtain ⟨h1, h2⟩ := not_or.mp h
      exact ⟨by simpa using h1, Option.isSome_iff_ne_none.mpr h2⟩

/-! ### Closing an observation -/

theorem State.slotOf_carries {s : State} {k : Nat} {r : TargetRecord} {prism : Nat} (h : s.Carries k r prism) :
    s.slotOf prism = some k ∧ s.record k = some r := by
  obtain ⟨h1, h2, h3⟩ := h
  refine ⟨?_, by unfold State.record; rw [h1]; rfl⟩
  have hk : k < s.table.length := by
    by_contra hh; rw [List.getElem?_eq_none (by omega)] at h1; cases h1
  unfold State.slotOf
  rw [List.findIdx?_eq_some_iff_getElem]
  refine ⟨hk, ?_, ?_⟩
  · rw [List.getElem?_eq_getElem hk] at h1
    rw [Option.some.inj h1]; simp [carries, h2]
  · intro j hj
    have hj' : j < s.table.length := by omega
    cases hq : s.table[j] with
    | none => simp [carries]
    | some q =>
      have := h3 j q hj (by rw [List.getElem?_eq_getElem hj', hq])
      simp [carries, this]

theorem State.slotOf_unknown {s : State} {prism : Nat} (h : ∀ r : TargetRecord, some r ∈ s.table → r.prism ≠ prism) :
    s.slotOf prism = none := by
  unfold State.slotOf
  rw [List.findIdx?_eq_none_iff]
  intro x hx
  cases x with
  | none => rfl
  | some r => simp [carries, h r hx]

/-- What an offered own fix does to the record of its prism (R31 to R33, R35). -/
theorem State.offerOwnFix_frame (prism : Nat) (f : Fix) (s : State) :
    s.offerOwnFix prism f = { s with table := (s.offerOwnFix prism f).table, line := (s.offerOwnFix prism f).line } := by
  unfold State.offerOwnFix
  split
  · rfl
  · split
    · rfl
    · split
      · rfl
      · dsimp only; split
        · rw [State.offerFrame_offered]; rfl
        · rfl

theorem State.giveObservation_frame (x : Observation) (s : State) :
    s.giveObservation x = { s with link := (s.giveObservation x).link } := by
  unfold State.giveObservation State.raise
  split
  · dsimp only; split <;> rfl
  · rfl

theorem State.giveObservation_link_congr (x : Observation) {s t : State} (h : s.link = t.link) :
    (s.giveObservation x).link = (t.giveObservation x).link := by
  unfold State.giveObservation State.raise
  rw [h]
  split
  · dsimp only; split <;> rfl
  · rfl

/-- What closing the open observation does (R93), when its fix is offered. -/
theorem State.closeObservation_closed (range : Option Nat) (o : OpenObs) (s : State) (h : s.engine.openObs = some o) :
    State.ObservationClosed range o s (s.closeObservation range true) := by
  have e : s.closeObservation range true =
      let u := (s.dropOpen.giveObservation (closedObservation o (closingOf range) range
        (observationGrid s.setup o.hz o.v (range.getD o.heldSd)))).offerClosedFix o (closingOf range)
        (observationGrid s.setup o.hz o.v (range.getD o.heldSd))
      { u with engine := { u.engine with
        aim := if range.isSome then u.engine.aim.map fun a => { a with ranged := true } else u.engine.aim } } := by
    unfold State.closeObservation
    rw [h]
    cases range <;> rfl
  rw [e]
  generalize hx : closedObservation o (closingOf range) range _ = x
  have hl : (s.dropOpen.giveObservation x).link = (s.giveObservation x).link :=
    State.giveObservation_link_congr x rfl
  rw [State.giveObservation_frame x s.dropOpen, hl]
  generalize hL : (s.giveObservation x).link = L
  generalize hg : observationGrid s.setup o.hz o.v (range.getD o.heldSd) = g
  dsimp only [State.dropOpen]
  have hx' : x = ⟨o.seq, o.kind, o.prism, o.lockTime, o.hz, o.v, if range.isSome then .ranged else .angleOnly, range,
      observationGrid s.setup o.hz o.v (range.getD o.heldSd), o.identified⟩ := by
    rw [← hx]; rfl
  generalize hw : ({ s with link := L, engine := { s.engine with openObs := none } } : State) = w
  have hw' : w.table = s.table ∧ w.line = s.line ∧ w.link = L ∧ w.config = s.config := by
    subst hw; exact ⟨rfl, rfl, rfl, rfl⟩
  have hfix : State.ObservationClosed range o s
      (let u := w.offerClosedFix o (closingOf range) g
       { u with engine := { u.engine with
        aim := if range.isSome then u.engine.aim.map fun a => { a with ranged := true } else u.engine.aim } }) := by
    cases g with
    | none =>
      dsimp only [State.offerClosedFix]
      refine ⟨by rw [← hx', hL]; exact hw'.2.2.1, fun _ => ⟨hw'.1, hw'.2.1⟩, fun _ _ _ _ _ _ => ⟨hw'.1, hw'.2.1⟩, ?_, ?_⟩
      · intro k r g' f _ hg'; rw [hg] at hg'; cases hg'
      · subst hw; rfl
    | some g =>
      dsimp only [State.offerClosedFix]
      have hq : ownQuality (closingOf range) = if range.isSome then 15 else 6 := by cases range <;> rfl
      rw [hq]
      generalize hf : (⟨g, o.lockTime, .own, if range.isSome then 15 else 6⟩ : Fix) = f
      have hfr := State.offerOwnFix_frame o.prism f w
      refine ⟨?_, ?_, ?_, ?_, ?_⟩
      · rw [hfr, ← hx', hL]; exact hw'.2.2.1
      · rintro (hu | hu)
        · have : w.slotOf o.prism = none := State.slotOf_unknown (by rw [hw'.1]; exact hu)
          unfold State.offerOwnFix; rw [this]; exact ⟨hw'.1, hw'.2.1⟩
        · rw [hu] at hg; cases hg
      · intro k r a hk ha hlt
        have hc : w.Carries k r o.prism := by unfold State.Carries at *; rw [hw'.1]; exact hk
        obtain ⟨h1, h2⟩ := State.slotOf_carries hc
        have : r.takeFix f = none := by
          unfold TargetRecord.takeFix; rw [ha]; dsimp only; rw [if_neg (by rw [← hf]; dsimp only; omega)]
        unfold State.offerOwnFix; rw [h1]; dsimp only; rw [h2]; dsimp only; rw [this]; exact ⟨hw'.1, hw'.2.1⟩
      · intro k r g' f' hk hg' hf' hlt
        rw [hg] at hg'; cases hg'
        rw [hf] at hf'; rw [hf']
        have hc : w.Carries k r o.prism := by unfold State.Carries at *; rw [hw'.1]; exact hk
        obtain ⟨h1, h2⟩ := State.slotOf_carries hc
        have ht : r.takeFix f =
            some { r with fixA := some f, fixB := r.fixA, velocity := velocityOf r.cls (some f) r.fixA } := by
          unfold TargetRecord.takeFix
          cases ha : r.fixA with
          | none => rfl
          | some a =>
            dsimp only; rw [if_pos]
            have := hlt a ha; rw [← hf]; exact this
        have hq15 : (f.quality = 15 ∧ r.cls ≠ .control) ↔ (range.isSome = true ∧ r.cls ≠ .control) := by
          rw [← hf]; cases range <;> simp
        unfold State.offerOwnFix; rw [h1]; dsimp only; rw [h2]; dsimp only; rw [ht]; dsimp only
        by_cases hh : f.quality = 15 ∧ r.cls ≠ .control
        · rw [if_pos hh, if_pos (hq15.mp hh), State.offerFrame_offered]
          refine ⟨by rw [← hw'.1]; rfl, ?_⟩
          dsimp only [State.setRecord]; rw [hw'.2.1, hw'.2.2.2, ← hf]
        · rw [if_neg hh, if_neg (fun x => hh (hq15.mpr x))]
          exact ⟨by rw [← hw'.1]; rfl, hw'.2.1⟩
      · dsimp only
        rw [hfr]
        subst hw; rfl
  exact hfix

theorem State.closeObservation_openClosed (s : State) : s.OpenClosed (s.closeObservation none true) :=
  ⟨fun h => by unfold State.closeObservation; rw [h], fun o h => State.closeObservation_closed none o s h⟩

/-! ### Attempts and search positions -/

/-- A record read through the table. -/
theorem State.record_of_table {s : State} {k : Nat} {r : TargetRecord} (h : s.table[k]? = some (some r)) :
    s.record k = some r := by unfold State.record; rw [h]; rfl

theorem clampV_idem (v : Int) : max 200000 (min 1800000 (clampV v)) = max 200000 (min 1800000 v) := by
  rw [clampV_eq]; omega

theorem reduce_idem (x : Int) : reduce x % 4000000 = x % 4000000 := Int.emod_emod_of_dvd x (Int.dvd_refl _)

/-- The engine goes on from a window state into SEARCHING, a window being in progress (R130, R128). -/
theorem State.enter_searching (s : State) (hm : s.engine.state.makesWindows = true) (hw : s.light.window.isSome = true) :
    s.enter .searching = { s with
      engine := { s.engine with state := .searching, dwelling := false }
      light := { s.light with emitter := .off } } := by
  have he : EngineState.searching.makesWindows = true := rfl
  unfold State.enter
  simp only [he, hm, hw, and_self, if_true]
  rfl

/-- A move of both axes (R113), which the engine then awaits. -/
theorem State.moveAxes_eq (t : Angles) (s : State) : s.moveAxes t = { s with
    hz := s.hz.move .hz s.clock t.hz
    vt := s.vt.move .vt s.clock t.v
    engine := { s.engine with aim := s.engine.aim.map fun a => { a with awaitHz := true, awaitVt := true } } } := rfl

/-- The steps that are not skipped (R78). -/
theorem State.planDirection_iff (s : State) (r : TargetRecord) (step : Nat) (d : Direction) :
    s.planDirection r step = some d ↔ s.StepOpen r step d := by
  unfold State.planDirection State.StepOpen planSource
  by_cases h1 : step % 2 = 1
  · simp [h1]
  · have h0 : step % 2 = 0 := by omega
    simp only [h0, show ¬ (0 : Nat) = 1 by decide, if_false, false_and, true_and, false_or]
    cases hn : s.sourceDirection .nominal r with
    | none => simp
    | some e =>
      dsimp only
      unfold State.coincides
      cases hf : r.fixA with
      | none => simp
      | some f =>
        cases hp : s.sourceDirection .predicted r with
        | none => simp
        | some p =>
          simp only [Option.isSome_some, true_imp_iff, Option.some.injEq, forall_eq']
          by_cases he : e = d
          · subst he; simp
          · simp [he]

/-- The next step, when there is one, is the first open one; with none, no step is open (R78). -/
theorem State.nextStep_spec (s : State) (r : TargetRecord) (left step : Nat) :
    (∀ k d, s.nextStep r left step = some (k, d) →
      step ≤ k ∧ k < step + left ∧ s.StepOpen r k d ∧ ∀ j e, step ≤ j → j < k → ¬ s.StepOpen r j e) ∧
      (s.nextStep r left step = none → ∀ j e, step ≤ j → j < step + left → ¬ s.StepOpen r j e) := by
  induction left generalizing step with
  | zero =>
    refine ⟨?_, ?_⟩
    · intro k d h; cases h
    · intro _ j e h1 h2; omega
  | succ n ih =>
    unfold State.nextStep
    cases hp : s.planDirection r step with
    | some d =>
      refine ⟨?_, by intro h; cases h⟩
      rintro k e ⟨⟩
      exact ⟨Nat.le_refl _, by omega, (s.planDirection_iff r step d).mp hp, by intro j _ h1 h2; omega⟩
    | none =>
      have hno : ∀ e, ¬ s.StepOpen r step e := by
        intro e he; rw [(s.planDirection_iff r step e).mpr he] at hp; cases hp
      obtain ⟨h1, h2⟩ := ih (step + 1)
      constructor
      · intro k e h
        obtain ⟨a, b, c, d⟩ := h1 k e h
        refine ⟨by omega, by omega, c, ?_⟩
        intro j x hj hk
        by_cases hjs : j = step
        · subst hjs; exact hno x
        · exact d j x (by omega) hk
      · intro h j e hj hk
        by_cases hjs : j = step
        · subst hjs; exact hno e
        · exact h2 h j e (by omega) (by omega)

/-- A step has one direction at most (R78). -/
theorem State.StepOpen.unique {s : State} {r : TargetRecord} {k : Nat} {d e : Direction} (h : s.StepOpen r k d)
    (h' : s.StepOpen r k e) : d = e :=
  Option.some.inj (((s.planDirection_iff r k d).mpr h).symm.trans ((s.planDirection_iff r k e).mpr h'))

/-- What the end of an attempt does (R78, R79, R85). -/
theorem State.endAttempt_ended (lost : Bool) {s : State} {a : Aim} {r : TargetRecord} (ha : s.engine.aim = some a)
    (hr : s.table[a.slot]? = some (some r)) (hm : s.engine.state.makesWindows = true)
    (hw : s.light.window.isSome = true) : State.AttemptEnded lost a r s (s.endAttempt lost) := by
  obtain ⟨h1, h2⟩ := s.nextStep_spec r (4 - a.planStep) (a.planStep + 1)
  unfold State.endAttempt
  rw [ha]; dsimp only
  rw [State.record_of_table hr, Option.bind_some]
  cases hn : s.nextStep r (4 - a.planStep) (a.planStep + 1) with
  | none =>
    refine ⟨fun k d hk hk4 ho _ => absurd ho (h2 hn k d (by omega) (by omega)), fun _ => rfl⟩
  | some x =>
    obtain ⟨k, d⟩ := x
    obtain ⟨b1, b2, b3, b4⟩ := h1 k d hn
    refine ⟨?_, fun hno => absurd b3 (hno k d (by omega) (by omega))⟩
    intro k' d' hk hk4 ho hmin
    have hkk : k' = k := by
      by_contra hne
      rcases Nat.lt_or_gt_of_ne hne with hlt | hlt
      · exact b4 k' d' (by omega) hlt ho
      · exact hmin k d (by omega) hlt b3
    subst hkk
    have := ho.unique b3; subst this
    dsimp only [Option.map_some]
    refine ⟨_, rfl, ?_, ?_, ?_⟩
    · rw [State.moveAxes_eq, State.enter_searching _ (by exact hm) (by exact hw)]
      unfold State.onAim
      rw [ha]
      cases lost <;>
        simp [Aim.beginAttempt, Aim.clearMarks, Aim.clearCounters, planSource, State.lossCentre, State.axes, clampV_eq]
    · rw [State.moveAxes_eq, State.enter_searching _ (by exact hm) (by exact hw)]
      cases lost <;> exact Drive.move_moved _ _ _ _
    · rw [State.moveAxes_eq, State.enter_searching _ (by exact hm) (by exact hw)]
      cases lost
      · have := Drive.move_moved .vt s.clock d'.v s.vt
        rw [targetInRange_vt] at this; exact this
      · have := Drive.move_moved .vt s.clock s.lossCentre.v s.vt
        rw [targetInRange_vt] at this
        unfold State.lossCentre State.axes at this ⊢
        rw [clampV_eq] at this ⊢
        exact this

/-- What a search position does (R81). -/
theorem State.searchAt_searchingAt (index : Nat) {s : State} {a : Aim} (ha : s.engine.aim = some a)
    (hm : s.engine.state.makesWindows = true) (hw : s.light.window.isSome = true) :
    State.SearchingAt index a s (s.searchAt index) := by
  unfold State.searchAt
  rw [ha]; dsimp only
  rw [State.moveAxes_eq, State.enter_searching _ (by exact hm) (by exact hw)]
  refine ⟨?_, ?_, ?_⟩
  · unfold State.onAim; rw [ha]; simp
  · have := Drive.move_moved .hz s.clock (searchPosition a.centre index).hz s.hz
    rw [targetInRange_hz] at this
    unfold searchPosition at this ⊢
    rw [reduce_idem] at this
    exact this
  · have := Drive.move_moved .vt s.clock (searchPosition a.centre index).v s.vt
    rw [targetInRange_vt] at this
    unfold searchPosition at this ⊢
    rw [clampV_idem] at this
    exact this

/-! ### Windows -/

/-- The wrong code of R82. -/
theorem State.wrongCode_iff {s : State} {a : Aim} {r : TargetRecord} (m : WindowReport)
    (hr : s.table[a.slot]? = some (some r)) : s.wrongCode a m = true ↔ r.SeesWrongCode m := by
  unfold State.wrongCode TargetRecord.SeesWrongCode TargetRecord.codeMatches
  rw [State.record_of_table hr]
  cases m.code <;> simp [imp_iff_not_or]

/-- The yield test of R86. -/
theorem State.yields_iff {s : State} {a : Aim} {r : TargetRecord} (n : Nat) (m : WindowReport)
    (hr : s.table[a.slot]? = some (some r)) : s.yields a n m = true ↔ s.MixedYields n r m := by
  unfold State.yields State.MixedYields
  rw [State.record_of_table hr]
  cases m.dominant <;> cases s.config <;> simp

/-- Both axes adjusted onto a window's spot (R84 step 1). -/
theorem State.adjustAxes_adjusted (m : WindowReport) (s t : State) (hh : t.hz = (s.adjustAxes m.angles).hz)
    (hv : t.vt = (s.adjustAxes m.angles).vt) : State.Adjusted m s t := by
  intro dx dy ho
  rw [hh, hv]
  have ha : m.angles = ⟨reduce (m.hz + dx), clampV (m.vt + dy)⟩ := by unfold WindowReport.angles; rw [ho]; rfl
  have h1 := Drive.adjust_adjusted .hz m.angles.hz s.hz
  have h2 := Drive.adjust_adjusted .vt m.angles.v s.vt
  rw [targetInRange_hz] at h1
  rw [targetInRange_vt] at h2
  rw [ha] at h1 h2 ⊢
  rw [reduce_idem] at h1
  rw [clampV_idem] at h2
  exact ⟨h1, h2⟩

theorem WindowReport.angles_eq {m : WindowReport} {dx dy : Int} (ho : m.offsets = some (dx, dy)) :
    m.angles = ⟨(m.hz + dx) % 4000000, max 200000 (min 1800000 (m.vt + dy))⟩ := by
  unfold WindowReport.angles; rw [ho]; dsimp only [Option.getD_some]; rw [clampV_eq]; rfl

theorem TargetRecord.codeMatches_iff (r : TargetRecord) (c : Nat) :
    r.codeMatches c = true ↔ r.cls = .machine ∧ r.blink = some c := by
  unfold TargetRecord.codeMatches; simp

/-- What a wrong prism does (R83). -/
theorem State.wrongPrism_seen {s : State} {a : Aim} {r : TargetRecord} {m : WindowReport} (hs : r.SeesWrongCode m)
    (ha : s.engine.aim = some a) (hr : s.table[a.slot]? = some (some r)) (hm : s.engine.state.makesWindows = true)
    (hw : s.light.window.isSome = true) : s.WrongPrismSeen a r m (s.wrongPrism m) := by
  obtain ⟨c, hc, -⟩ := hs
  unfold State.wrongPrism State.WrongPrismSeen
  rw [hc]; dsimp only
  have hu : s.chanceObservation c m.angles = { s with
      engine := (s.chanceObservation c m.angles).engine, link := (s.chanceObservation c m.angles).link } ∧
      (s.chanceObservation c m.angles).engine =
        { s.engine with sequence := (s.chanceObservation c m.angles).engine.sequence } := by
    unfold State.chanceObservation
    split
    · exact ⟨rfl, rfl⟩
    · rw [State.giveObservation_frame]; exact ⟨rfl, rfl⟩
  refine ⟨s.chanceObservation c m.angles, State.endAttempt_ended false ?_ ?_ ?_ ?_, ?_, ?_⟩
  · rw [hu.2]; exact ha
  · rw [hu.1]; exact hr
  · rw [hu.2]; exact hm
  · rw [hu.1]; exact hw
  · rintro c' ⟨⟩ hno
    unfold State.chanceObservation State.prismOfCode
    rw [show s.table.find? (carriesCode c) = none from by
      rw [List.find?_eq_none]
      intro x hx
      cases x with
      | none => simp [carriesCode]
      | some q =>
        simp only [carriesCode, TargetRecord.codeMatches_iff, not_and]
        intro h1 h2; exact hno q hx h1 h2]
  · rintro c' k q dx dy ⟨⟩ ho hk hq hb hmin
    have hf : s.table.find? (carriesCode c) = some (some q) := by
      rw [List.find?_eq_some_iff_getElem]
      refine ⟨(q.codeMatches_iff c).mpr ⟨hq, hb⟩, k, ?_⟩
      have hlt : k < s.table.length := by
        by_contra hh; rw [List.getElem?_eq_none (by omega)] at hk; cases hk
      refine ⟨hlt, ?_, ?_⟩
      · rw [List.getElem?_eq_getElem hlt] at hk; exact Option.some.inj hk
      · intro j hj
        have hj' : j < s.table.length := by omega
        cases hp : s.table[j] with
        | none => simp [carriesCode]
        | some p =>
          have h1 := hmin j p hj (by rw [List.getElem?_eq_getElem hj', hp])
          simp only [carriesCode, Bool.not_eq_true', Bool.eq_false_iff, ne_eq, TargetRecord.codeMatches_iff, not_and]
          exact h1
    have hp : s.prismOfCode c = some q.prism := by unfold State.prismOfCode; rw [hf]
    unfold State.chanceObservation
    rw [hp, WindowReport.angles_eq ho]; dsimp only
    rw [State.giveObservation_frame]
    congr 1
    exact State.giveObservation_link_congr _ rfl

/-- The engine goes on from a window state into CENTRING: the window and the light stand (R130). -/
theorem State.enter_centring (s : State) (hm : s.engine.state.makesWindows = true) (hw : s.light.window.isSome = true) :
    s.enter .centring = { s with engine := { s.engine with state := .centring, dwelling := false } } := by
  have he : EngineState.centring.makesWindows = true := rfl
  unfold State.enter
  simp only [he, hm, hw, and_self, if_true]
  rfl

/-- A window counted at a search position, in ACQUIRING (R81). -/
theorem State.countWindow_acquiring {s : State} {a : Aim} {r : TargetRecord} (ha : s.engine.aim = some a)
    (hr : s.table[a.slot]? = some (some r)) (hw : s.light.window.isSome = true) (hs : s.engine.state = .acquiring) :
    (a.dwellCount + 1 < 4 → s.countWindow = s.withAim { a with dwellCount := a.dwellCount + 1 }) ∧
      (4 ≤ a.dwellCount + 1 → a.rings = 0 → State.AttemptEnded false { a with dwellCount := a.dwellCount + 1 } r
        (s.withAim { a with dwellCount := a.dwellCount + 1 }) s.countWindow) ∧
      (4 ≤ a.dwellCount + 1 → 0 < a.rings → State.SearchingAt 1 a s s.countWindow) := by
  have hc : (s.onAim fun x => { x with dwellCount := x.dwellCount + 1 }) =
      s.withAim { a with dwellCount := a.dwellCount + 1 } := by unfold State.onAim State.withAim; rw [ha]; rfl
  have hm : s.engine.state.makesWindows = true := by rw [hs]; rfl
  unfold State.countWindow
  rw [ha]; dsimp only
  rw [if_pos hs, hc]
  refine ⟨fun h => by rw [if_pos h], fun h h0 => ?_, fun h h0 => ?_⟩
  · rw [if_neg (by omega), if_pos h0]
    exact State.endAttempt_ended false rfl hr hm hw
  · rw [if_neg (by omega), if_neg (by omega)]
    have := State.searchAt_searchingAt 1 (s := s.withAim { a with dwellCount := a.dwellCount + 1 }) rfl hm hw
    exact this

/-- A window counted at a search position, in SEARCHING (R81). -/
theorem State.countWindow_searching {s : State} {a : Aim} {r : TargetRecord} (ha : s.engine.aim = some a)
    (hr : s.table[a.slot]? = some (some r)) (hw : s.light.window.isSome = true) (hs : s.engine.state = .searching) :
    (a.dwellCount + 1 < 2 → s.countWindow = s.withAim { a with dwellCount := a.dwellCount + 1 }) ∧
      (2 ≤ a.dwellCount + 1 → 4 * a.rings * (a.rings + 1) ≤ a.index →
        State.AttemptEnded false { a with dwellCount := a.dwellCount + 1 } r
          (s.withAim { a with dwellCount := a.dwellCount + 1 }) s.countWindow) ∧
      (2 ≤ a.dwellCount + 1 → a.index < 4 * a.rings * (a.rings + 1) →
        State.SearchingAt (a.index + 1) a s s.countWindow) := by
  have hc : (s.onAim fun x => { x with dwellCount := x.dwellCount + 1 }) =
      s.withAim { a with dwellCount := a.dwellCount + 1 } := by unfold State.onAim State.withAim; rw [ha]; rfl
  have hm : s.engine.state.makesWindows = true := by rw [hs]; rfl
  unfold State.countWindow lastIndex
  rw [ha]; dsimp only
  rw [if_neg (by rw [hs]; decide), hc]
  refine ⟨fun h => by rw [if_pos h], fun h h0 => ?_, fun h h0 => ?_⟩
  · rw [if_neg (by omega), if_pos (by omega)]
    exact State.endAttempt_ended false rfl hr hm hw
  · rw [if_neg (by omega), if_neg (by omega)]
    have := State.searchAt_searchingAt (a.index + 1) (s := s.withAim { a with dwellCount := a.dwellCount + 1 }) rfl hm hw
    exact this

/-- What a window report does in each state of the engine (R81 to R86, R89, R90). -/
theorem State.takeWindow_taken {s : State} {a : Aim} {r : TargetRecord} (m : WindowReport) (ha : s.engine.aim = some a)
    (hr : s.table[a.slot]? = some (some r)) (hw : s.light.window.isSome = true) :
    State.WindowTaken a r m s (s.takeWindow m) := by
  have hwc := State.wrongCode_iff m hr
  have hon : ∀ f : Aim → Aim, s.onAim f = s.withAim (f a) := by
    intro f; unfold State.onAim State.withAim; rw [ha]; rfl
  have hin : ∀ dx dy, m.offsets = some (dx, dy) → (m.inTolerance = true ↔ dx.natAbs ≤ 20 ∧ dy.natAbs ≤ 20) := by
    intro dx dy ho; unfold WindowReport.inTolerance; rw [ho]; simp
  have hlook : s.looking → s.takeWindow m = s.searchWindow a m ∧ s.engine.state.makesWindows = true := by
    intro h; unfold State.takeWindow; rw [ha]; dsimp only
    rcases h with h | ⟨h, hd⟩ <;> rw [h]
    · exact ⟨rfl, rfl⟩
    · exact ⟨by dsimp only; rw [if_pos hd], rfl⟩
  have hcen : s.engine.state = .centring → s.takeWindow m = s.centringWindow a m := by
    intro h; unfold State.takeWindow; rw [ha]; dsimp only; rw [h]
  have hran : s.engine.state = .ranging → s.takeWindow m = s.rangingWindow a m := by
    intro h; unfold State.takeWindow; rw [ha]; dsimp only; rw [h]
  have htra : s.engine.state = .tracking → s.takeWindow m = s.trackingWindow a m := by
    intro h; unfold State.takeWindow; rw [ha]; dsimp only; rw [h]
  constructor
  · intro h hd
    unfold State.takeWindow; rw [ha]; dsimp only; rw [h]; dsimp only; rw [hd]; rfl
  · intro h ho hs
    rcases h with h | h
    · rw [(hlook h).1]; unfold State.searchWindow
      rw [if_pos ho, if_pos (hwc.mpr hs)]
      exact State.wrongPrism_seen hs ha hr (hlook h).2 hw
    · rw [hcen h]; unfold State.centringWindow
      rw [ho]; dsimp only; rw [if_pos (hwc.mpr hs)]
      exact State.wrongPrism_seen hs ha hr (by rw [h]; rfl) hw
  · intro h ho hs dx dy hoff
    obtain ⟨h1, h2⟩ := hlook h
    rw [h1]; unfold State.searchWindow
    rw [if_pos ho, if_neg (fun hh => hs (hwc.mp hh)), hon, State.enter_centring (s.withAim a.clearMarks) h2 hw]
    unfold State.centringOwn
    dsimp only [State.withAim]
    have hn : ¬ 3 ≤ (if m.inTolerance = true then a.clearMarks.inTolerance + 1 else 0) := by
      split
      · show ¬ 3 ≤ 0 + 1; decide
      · decide
    rw [if_neg hn]
    refine ⟨State.adjustAxes_adjusted m s _ rfl rfl, ?_⟩
    unfold State.onAim State.adjustAxes State.onDrive State.setDrive State.drive
    dsimp only [Option.map_some]
    have : (if m.inTolerance = true then a.clearMarks.inTolerance + 1 else 0) =
        if dx.natAbs ≤ 20 ∧ dy.natAbs ≤ 20 then 1 else 0 := by
      by_cases hi : m.inTolerance = true
      · rw [if_pos hi, if_pos ((hin dx dy hoff).mp hi)]; rfl
      · rw [if_neg hi, if_neg (fun hh => hi ((hin dx dy hoff).mpr hh))]
    rw [this]
    simp [Aim.clearMarks, Aim.clearCounters]
  · rintro b h ho rfl
    obtain ⟨h1, h2⟩ := hlook (.inl h)
    rw [h1]; unfold State.searchWindow
    rw [if_neg ho]
    exact State.countWindow_acquiring ha hr hw h
  · rintro b h hd ho rfl
    obtain ⟨h1, h2⟩ := hlook (.inr ⟨h, hd⟩)
    rw [h1]; unfold State.searchWindow
    rw [if_neg ho]
    exact State.countWindow_searching ha hr hw h
  · rintro b h ho rfl
    have hy := State.yields_iff (a.mixed + 1) m hr
    rw [hcen h]; unfold State.centringWindow
    rw [ho]; dsimp only; rw [hon]
    refine ⟨fun hh => by rw [if_pos (hy.mpr hh)]; rfl, fun hh hlt => ?_, fun hh hle => ?_⟩
    · rw [if_neg (fun x => hh (hy.mp x)), if_neg (by omega)]
    · rw [if_neg (fun x => hh (hy.mp x)), if_pos (by omega)]
      exact State.endAttempt_ended false rfl hr (by show s.engine.state.makesWindows = true; rw [h]; rfl) hw
  · rintro b h ho hx rfl
    have hle : State.takeWindow m s = if 3 ≤ a.nonOwn + 1 then
        (s.withAim { a with inTolerance := 0, mixed := 0, nonOwn := a.nonOwn + 1 }).endAttempt true
        else s.withAim { a with inTolerance := 0, mixed := 0, nonOwn := a.nonOwn + 1 } := by
      rw [hcen h]; unfold State.centringWindow
      rw [← hon fun a => { a with inTolerance := 0, mixed := 0, nonOwn := a.nonOwn + 1 }]
      split <;> simp_all
    rw [hle]
    refine ⟨fun hlt => by rw [if_neg (by exact Nat.not_le.mpr hlt)], fun hle => ?_⟩
    rw [if_pos hle]
    exact State.endAttempt_ended true rfl hr (by show s.engine.state.makesWindows = true; rw [h]; rfl) hw
  · intro h ho hs
    rw [hran h]; unfold State.rangingWindow
    rw [if_pos ⟨ho, by simpa using fun hh => hs (hwc.mp hh)⟩]
    exact ⟨State.adjustAxes_adjusted m s _ rfl rfl, rfl⟩
  · intro h ho
    rw [hran h]; unfold State.rangingWindow
    rw [if_neg]
    rintro ⟨h1, h2⟩
    rcases ho with ho | ho
    · exact ho h1
    · rw [hwc.mpr ho] at h2; cases h2
  · intro h ho hs dx dy hoff
    rw [htra h]; unfold State.trackingWindow
    rw [if_pos ⟨ho, by simpa using fun hh => hs (hwc.mp hh)⟩, WindowReport.angles_eq hoff]
    refine ⟨State.adjustAxes_adjusted m s _ ?_ ?_, ?_⟩
    · rw [WindowReport.angles_eq hoff]; rfl
    · rw [WindowReport.angles_eq hoff]; rfl
    · unfold State.onAim State.adjustAxes State.onDrive State.setDrive State.drive
      dsimp only
      rw [ha]; rfl
  · rintro b h ho rfl
    have hy := State.yields_iff (a.mixed + 1) m hr
    rw [htra h]; unfold State.trackingWindow
    rw [if_neg (by rw [ho]; simp), if_pos ho, hon]
    refine ⟨fun hh => by rw [if_pos (hy.mpr hh)]; rfl, fun hh => by rw [if_neg (fun x => hh (hy.mp x))]⟩
  · rintro b h ho rfl
    have hle : State.takeWindow m s = if 10 ≤ a.nonOwn + 1 then
        (s.withAim { a with mixed := 0, nonOwn := a.nonOwn + 1 }).endAim .trackLost none
        else s.withAim { a with mixed := 0, nonOwn := a.nonOwn + 1 } := by
      rw [htra h]; unfold State.trackingWindow
      rw [hon, hon]
      rw [if_neg, if_neg]
      · rintro hx
        rcases ho with ⟨h1, -⟩ | ⟨-, h1⟩
        · rw [h1] at hx; cases hx
        · exact h1 hx
      · rintro ⟨h1, h2⟩
        rcases ho with ⟨-, h3⟩ | ⟨h3, -⟩
        · rw [hwc.mpr h3] at h2; cases h2
        · exact h3 h1
    rw [hle]
    exact ⟨fun hlt => by rw [if_neg (by exact Nat.not_le.mpr hlt)], fun hge => by rw [if_pos hge]; rfl⟩

/-! ### Selection -/

/-- A record passes the filter exactly when R61's five tests do. -/
theorem State.filter_passes_iff (s : State) (r : TargetRecord) (d : Direction) :
    s.filter r = .passes d ↔ s.FilterPassed r d := by
  unfold State.filter
  constructor
  · intro h
    cases hp : r.prediction s.clock with
    | none => rw [hp] at h; cases h
    | some p =>
      rw [hp] at h; dsimp only at h
      cases hd : directionTo s.setup p with
      | given e =>
        rw [hd] at h; dsimp only at h
        split at h
        · cases h
        · split at h
          · cases h
          · rename_i h1 h2
            cases h
            refine ⟨⟨p, hp, hd⟩, ?_, by omega, by omega⟩
            cases hm : (s.sector (sectorOf d.azimuth)).mode with
            | opened => rfl
            | masked => exact absurd hm h1
      | _ => rw [hd] at h; cases h
  · rintro ⟨⟨p, hp, hd⟩, hs, hb1, hb2⟩
    rw [hp]; dsimp only; rw [hd]; dsimp only
    rw [if_neg (by rw [hs]; decide), if_neg (by omega)]

/-- What a hand-over does (R68, R69, R76) from WAITING. -/
theorem State.handOver_handedOver {s : State} (slot : Nat) {r : TargetRecord} {d : Direction} (hf : s.filter r = .passes d)
    (hs : slot < s.table.length) : State.HandedOver slot r d s (s.handOver slot r d) := by
  have h1 := Drive.move_moved .hz s.clock d.hz s.hz
  have h2 := Drive.move_moved .vt s.clock d.v s.vt
  rw [targetInRange_hz] at h1
  rw [targetInRange_vt] at h2
  unfold State.handOver State.offerIntent
  simp only [State.offerFrame_offered]
  by_cases hc : r.cls = .machine
  · simp only [hc, if_true]
    refine ⟨(s.filter_passes_iff r d).mp hf, ?_, ?_, ?_, ⟨h1, h2⟩, ?_, ?_⟩
    · show (s.table.set slot _)[slot]? = _
      simp [hs, hc]
    · unfold newAim; rfl
    · rw [if_pos hc]; rfl
    · rfl
    · rfl
  · simp only [hc, if_false]
    refine ⟨(s.filter_passes_iff r d).mp hf, ?_, ?_, ?_, ⟨h1, h2⟩, ?_, ?_⟩
    · show (s.table.set slot _)[slot]? = _
      simp [hs]
    · unfold newAim; rfl
    · rw [if_neg hc]; rfl
    · rfl
    · rfl

/-- What the ordinary pass leaves of a record (R60, R62). -/
theorem State.look_leftAs (s : State) (i : Nat) (r : TargetRecord) : s.LeftAs r (s.look i r).record := by
  have hidle : ∀ q : TargetRecord, (s.clock < q.due → (s.lookIdle i q).record = q) ∧
      (∀ d, s.filter q = .passes d → (s.lookIdle i q).record = q) ∧
      (s.filter q = .fails .noPrediction → (s.lookIdle i q).record = q) ∧
      ∀ why reason, q.due ≤ s.clock → s.filter q = .fails why → why.reason = some reason →
        (s.lookIdle i q).record = q.markUnreachable s.clock reason := by
    intro q
    unfold State.lookIdle
    refine ⟨fun h => by rw [if_pos h], fun d h => ?_, fun h => ?_, fun why reason h hf hw => ?_⟩
    · rw [h]; split <;> rfl
    · rw [h]; split <;> rfl
    · rw [if_neg (by omega), hf]; dsimp only; rw [hw]
  have hseen : ∀ q, r.seenAs s.clock q → (s.look i r).record = (s.lookIdle i q).record := by
    rintro q (⟨h1, rfl⟩ | ⟨h1, h2, rfl⟩)
    · unfold State.look; rw [h1]
    · have : r.deferOver s.clock = true := by
        unfold TargetRecord.deferOver; rw [h1]
        cases hd : r.deferUntil with
        | none => rfl
        | some t => simp [h2 t hd]
      unfold State.look; rw [h1]; dsimp only; rw [if_pos this]; rfl
  constructor
  · intro h; unfold State.look; rw [h]
  · rintro h ⟨t, ht, hlt⟩
    unfold State.look; rw [h]; dsimp only; rw [if_neg]
    unfold TargetRecord.deferOver; rw [ht]; simp; intro _; exact hlt
  · intro q hq h; rw [hseen q hq]; exact (hidle q).1 h
  · intro q d hq h; rw [hseen q hq]; exact (hidle q).2.1 d h
  · intro q hq h; rw [hseen q hq]; exact (hidle q).2.2.1 h
  · intro q why reason hq h hf hw; rw [hseen q hq]
    exact (hidle q).2.2.2 why reason h hf hw

/-! ### The end of an aim -/

/-- An own fix leaves each record as it is but for its fixes and its velocity (R31, R35). -/
theorem State.offerOwnFix_record (u : State) (prism : Nat) (f : Fix) (k : Nat) (r : TargetRecord)
    (h : u.table[k]? = some (some r)) : ∃ q, (u.offerOwnFix prism f).table[k]? = some (some q) ∧
      q = { r with fixA := q.fixA, fixB := q.fixB, velocity := q.velocity } := by
  unfold State.offerOwnFix
  split
  · exact ⟨r, h, rfl⟩
  · rename_i i _
    split
    · exact ⟨r, h, rfl⟩
    · rename_i q hq
      split
      · exact ⟨r, h, rfl⟩
      · rename_i q' hq'
        have hset : ∃ q, (u.table.set i (some q'))[k]? = some (some q) ∧
            q = { r with fixA := q.fixA, fixB := q.fixB, velocity := q.velocity } := by
          rw [List.getElem?_set]
          split
          · rename_i e; subst e
            have hlt : i < u.table.length := by
              by_contra hh; rw [List.getElem?_eq_none (by omega)] at h; cases h
            rw [if_pos hlt]
            have hqr : q = r := by unfold State.record at hq; rw [h] at hq; exact (Option.some.inj hq).symm
            subst hqr
            refine ⟨q', rfl, ?_⟩
            unfold TargetRecord.takeFix at hq'
            split at hq'
            · cases hq'; rfl
            · split at hq'
              · cases hq'; rfl
              · cases hq'
          · exact ⟨r, h, rfl⟩
        dsimp only
        split
        · rw [State.offerFrame_offered]; exact hset
        · exact hset

/-- Closing an observation leaves each record as it is but for its fixes and its velocity (R93). -/
theorem State.closeObservation_record (range : Option Nat) (s : State) (k : Nat) (r : TargetRecord)
    (h : s.table[k]? = some (some r)) : ∃ q, (s.closeObservation range true).table[k]? = some (some q) ∧
      q = { r with fixA := q.fixA, fixB := q.fixB, velocity := q.velocity } := by
  unfold State.closeObservation
  split
  · exact ⟨r, h, rfl⟩
  · rename_i o _
    dsimp only
    rw [if_pos rfl, State.giveObservation_frame]
    generalize (State.giveObservation _ _).link = L
    have key : ∀ c g, ∃ q, (State.offerClosedFix o c g { s.dropOpen with link := L }).table[k]? = some (some q) ∧
        q = { r with fixA := q.fixA, fixB := q.fixB, velocity := q.velocity } := by
      intro c g
      unfold State.offerClosedFix
      cases g with
      | none => exact ⟨r, h, rfl⟩
      | some g => exact State.offerOwnFix_record _ _ _ _ _ h
    split
    · exact key _ _
    · exact key _ _

/-- Step 4 of R37: IDLE, or DEFERRED while the defer-until lies ahead; nothing else of the record changes. -/
theorem TargetRecord.leaveActive_spec (now : Nat) (r : TargetRecord) :
    let q := r.leaveActive now
    q = { r with state := q.state, deferUntil := q.deferUntil, deferArmed := q.deferArmed } ∧
      ((∃ t, r.deferUntil = some t ∧ now < t) → q.state = .deferred ∧ q.deferUntil = r.deferUntil) ∧
      ((∀ t, r.deferUntil = some t → t ≤ now) → q.state = .idle ∧ q.deferUntil = none) := by
  dsimp only
  unfold TargetRecord.leaveActive TargetRecord.dropDefer
  refine ⟨?_, ?_, ?_⟩
  · split
    · split <;> rfl
    · rfl
  · rintro ⟨t, ht, hlt⟩; rw [ht]; dsimp only; rw [if_pos hlt]; exact ⟨rfl, rfl⟩
  · intro h
    cases ht : r.deferUntil with
    | none => exact ⟨rfl, rfl⟩
    | some t => have := h t ht; dsimp only; rw [if_neg (by omega)]; exact ⟨rfl, rfl⟩

/-- Step 2 of R37 writes the due time, the misses and the lost flag alone. -/
theorem TargetRecord.applyOutcome_frame (now lock : Nat) (ranged : Bool) (o : AimOutcome) (r : TargetRecord) :
    let q := r.applyOutcome now lock ranged o
    q = { r with due := q.due, dueArmed := q.dueArmed, misses := q.misses, lost := q.lost } := by
  dsimp only
  unfold TargetRecord.applyOutcome TargetRecord.setDue
  repeat' split
  all_goals rfl

/-- The end of an aim (R37): the due time, misses and lost flag are step 2's; the outcome is stored; the later of the defer
times decides between IDLE and DEFERRED. -/
theorem TargetRecord.endAim_writes (now lock : Nat) (ranged : Bool) (o : AimOutcome) (defer : Option Nat)
    (r : TargetRecord) :
    let q := r.endAim now lock ranged o defer
    q = { r.applyOutcome now lock ranged o with
        lastOutcome := some o, state := q.state, deferUntil := q.deferUntil, deferArmed := q.deferArmed } ∧
      ∀ d : Option Nat, d = (match defer with | some t => some (max (r.deferUntil.getD 0) t) | none => r.deferUntil) →
        ((∃ t, d = some t ∧ now < t) → q.state = .deferred ∧ q.deferUntil = d) ∧
          ((∀ t, d = some t → t ≤ now) → q.state = .idle ∧ q.deferUntil = none) := by
  dsimp only
  have hd : (r.applyOutcome now lock ranged o).deferUntil = r.deferUntil := by
    rw [TargetRecord.applyOutcome_frame]
  unfold TargetRecord.endAim
  cases defer with
  | none =>
    dsimp only
    obtain ⟨h1, h2, h3⟩ :=
      TargetRecord.leaveActive_spec now { r.applyOutcome now lock ranged o with lastOutcome := some o }
    refine ⟨h1, ?_⟩
    rintro d rfl
    simp only [hd] at h2 h3 ⊢
    exact ⟨h2, h3⟩
  | some t =>
    dsimp only
    rw [hd, show laterDefer r.deferUntil t = max (r.deferUntil.getD 0) t by
      unfold laterDefer; cases r.deferUntil <;> simp]
    obtain ⟨h1, h2, h3⟩ := TargetRecord.leaveActive_spec now
      (({ r.applyOutcome now lock ranged o with lastOutcome := some o } : TargetRecord).setDefer
        (max (r.deferUntil.getD 0) t))
    refine ⟨h1, ?_⟩
    rintro d rfl
    exact ⟨h2, h3⟩

end Sys2Proof.Machine
end

