-- ==== Sys2Proof/Laws/Stops.lean ====
section
/-! SUPPORT. What ends or suspends an aim from outside it, said once in the words of Safety.lean: a pause, a fault of a
drive, the start of the site hold, and the resumption after it; and the second report of a slew. -/

namespace Sys2Proof.Machine

open Sys2Proof

/-! ### Closing beside other changes -/

theorem State.giveObservation_raise (e : EventMark) (x : Observation) (s : State) :
    (s.raise e).giveObservation x = (s.giveObservation x).raise e := by
  unfold State.giveObservation State.raise
  dsimp only
  split
  · split
    · cases e <;> rfl
    · rfl
  · cases e <;> rfl

/-- The table after an offered own fix follows from the table alone. -/
theorem State.offerOwnFix_table_congr (prism : Nat) (f : Fix) {s t : State} (h : t.table = s.table) :
    (t.offerOwnFix prism f).table = (s.offerOwnFix prism f).table := by
  unfold State.offerOwnFix State.slotOf State.record
  rw [h]
  repeat' split
  all_goals simp only [State.offerFrame_offered, State.setRecord, h]

/-- The table after a closing follows from the table, the open observation and the setup. -/
theorem State.closeObservation_table_congr (range : Option Nat) (b : Bool) {s t : State} (ht : t.table = s.table)
    (ho : t.engine.openObs = s.engine.openObs) (hs : t.setup = s.setup) :
    (t.closeObservation range b).table = (s.closeObservation range b).table := by
  unfold State.closeObservation
  rw [ho, hs]
  cases s.engine.openObs with
  | none => exact ht
  | some o =>
    dsimp only
    have hg : ∀ (u : State) (x : Observation), (u.giveObservation x).table = u.table := by
      intro u x; rw [State.giveObservation_frame]
    have hc : ∀ (u w : State) c g, u.table = w.table → (u.offerClosedFix o c g).table = (w.offerClosedFix o c g).table := by
      intro u w c g h
      unfold State.offerClosedFix
      cases g with
      | none => exact h
      | some g => exact State.offerOwnFix_table_congr _ _ h
    have hk : ∀ u w : State, u.table = w.table →
        (if range.isSome then u.onAim fun a => { a with ranged := true } else u).table =
          (if range.isSome then w.onAim fun a => { a with ranged := true } else w).table := by
      intro u w h; split <;> exact h
    apply hk
    cases b
    · simp only [Bool.false_eq_true, if_false, hg]; exact ht
    · simp only [if_true]; apply hc; rw [hg, hg]; exact ht

/-- The link after a closing follows from the link, the open observation and the setup. -/
theorem State.closeObservation_link_congr (range : Option Nat) (b : Bool) {s t : State} (hl : t.link = s.link)
    (ho : t.engine.openObs = s.engine.openObs) (hs : t.setup = s.setup) :
    (t.closeObservation range b).link = (s.closeObservation range b).link := by
  unfold State.closeObservation
  rw [ho, hs]
  cases s.engine.openObs with
  | none => exact hl
  | some o =>
    dsimp only
    have hc : ∀ (u : State) c g, (u.offerClosedFix o c g).link = u.link := by
      intro u c g
      unfold State.offerClosedFix
      cases g with
      | none => rfl
      | some g => dsimp only; rw [State.offerOwnFix_frame]
    have hk : ∀ u : State, (if range.isSome then u.onAim fun a => { a with ranged := true } else u).link = u.link := by
      intro u; split <;> rfl
    rw [hk, hk]
    cases b
    · simp only [Bool.false_eq_true, if_false]; exact State.giveObservation_link_congr _ hl
    · simp only [if_true, hc]; exact State.giveObservation_link_congr _ hl

/-- Closing commutes with the marking of an event. -/
theorem State.closeObservation_link_raise (range : Option Nat) (b : Bool) (e : EventMark) (s : State) :
    ((s.raise e).closeObservation range b).link = ((s.closeObservation range b).raise e).link := by
  unfold State.closeObservation
  rw [show (s.raise e).engine = s.engine from rfl, show (s.raise e).setup = s.setup from rfl]
  cases s.engine.openObs with
  | none => rfl
  | some o =>
    dsimp only
    have hc : ∀ (u : State) c g, (u.offerClosedFix o c g).link = u.link := by
      intro u c g
      unfold State.offerClosedFix
      cases g with
      | none => rfl
      | some g => dsimp only; rw [State.offerOwnFix_frame]
    have hk : ∀ u : State, (if range.isSome then u.onAim fun a => { a with ranged := true } else u).link = u.link := by
      intro u; split <;> rfl
    have hd : (s.raise e).dropOpen = s.dropOpen.raise e := rfl
    have hr : ∀ u : State, (u.raise e).link = { u.link with events := setMark e u.link.events } := fun _ => rfl
    rw [hr, hk, hk, hd]
    cases b
    · simp only [Bool.false_eq_true, if_false, State.giveObservation_raise]; rfl
    · simp only [if_true, hc, State.giveObservation_raise]; rfl

/-- What a closing without a distance leaves in a state `t` that differs from `s` in none of what the closing reads: the table
of the closing in `s`. -/
theorem State.closeObservation_none_from {s t : State} (b : Bool) (ht : t.table = s.table)
    (he : t.engine = s.engine) (hs : t.setup = s.setup) : t.closeObservation none b =
      { t with table := (s.closeObservation none b).table, engine := (s.closeObservation none b).engine
               link := (t.closeObservation none b).link } := by
  have h1 := State.closeObservation_none_frame t b
  have h2 := State.closeObservation_table_congr none b ht (by rw [he]) hs
  have h3 : (s.closeObservation none b).engine = { s.engine with openObs := none } := by
    rw [State.closeObservation_none_frame s b]
  rw [h3, ← he, ← h2]
  generalize hx : t.closeObservation none b = x at *
  rw [h1]


/-- Where the engine's state calls for no light (R128), the emitter is OFF. -/
theorem State.followLight_unlit {s : State} (h : s.engine.wantsLight = false) :
    s.followLight = { s with light := { s.light with emitter := .off } } := by
  unfold State.followLight State.lightAllowed
  simp [h]

/-- While the site hold is in force (R128), the emitter is OFF. -/
theorem State.followLight_held {s : State} (h : s.held = true) :
    s.followLight = { s with light := { s.light with emitter := .off } } := by
  unfold State.followLight State.lightAllowed
  simp [h]

/-! ### Aims that end with the engine STOPPED -/

/-- An outcome that keeps due time, misses and lost flag (R40), with no defer time, ends the record as `EndedAs` says. -/
theorem TargetRecord.endAim_endedAs (now lock : Nat) (ranged : Bool) (o : AimOutcome) (r : TargetRecord)
    (hno : o = .faulted ∨ o = .aborted ∨ o = .abandoned) : r.EndedAs now o (r.endAim now lock ranged o none) := by
  have h : r.applyOutcome now lock ranged o = r := by rcases hno with rfl | rfl | rfl <;> rfl
  unfold TargetRecord.endAim TargetRecord.EndedAs TargetRecord.leaveActive TargetRecord.dropDefer
  rw [h]; dsimp only
  cases hd : r.deferUntil with
  | none => simp
  | some t =>
    dsimp only
    constructor
    · rintro ⟨x, ⟨⟩, hx⟩; rw [if_pos hx]
    · intro hx; have := hx t rfl; rw [if_neg (by omega)]

/-- The end of an aim with nothing open, the engine then STOPPED (R95, R97, R98): the record ended, no aim, no light. -/
theorem State.stopAim_stopped {s : State} {a : Aim} {r : TargetRecord} (o : AimOutcome)
    (hno : o = .faulted ∨ o = .aborted ∨ o = .abandoned) (ho : s.engine.openObs = none) (ha : s.engine.aim = some a)
    (hr : s.table[a.slot]? = some (some r)) : s.stopAim o = { s with
      table := s.table.set a.slot (some (r.endAim s.clock (a.lastLock.getD s.clock) a.ranged o none))
      engine := ⟨.stopped, none, none, none, s.engine.sequence, false⟩
      light := { s.light with window := none, emitter := .off } } := by
  have hl : raisesLost o r = false := by rcases hno with rfl | rfl | rfl <;> rfl
  have hc : s.closeObservation none true = s := by unfold State.closeObservation; rw [ho]
  have ht : (s.finishAim o none).table =
      s.table.set a.slot (some (r.endAim s.clock (a.lastLock.getD s.clock) a.ranged o none)) := by
    unfold State.finishAim
    rw [hc]; dsimp only; rw [ha]; dsimp only
    unfold State.writeOutcome
    rw [State.record_of_table hr]; dsimp only
    rw [hl, if_neg (by decide)]
    unfold State.writeBlock State.changeBlock
    cases a.sector <;> rfl
  unfold State.stopAim
  rw [State.enter_stopped, State.finishAim_frame s ho o hno, ht]
  simp [ho]

/-- The end of an aim with nothing open changes the table, the engine and the light alone, when the engine is then STOPPED. -/
theorem State.stopAim_frame {s : State} (o : AimOutcome) (hno : o = .faulted ∨ o = .aborted ∨ o = .abandoned)
    (ho : s.engine.openObs = none) : s.stopAim o = { s with
      table := (s.stopAim o).table
      engine := ⟨.stopped, none, none, none, s.engine.sequence, false⟩
      light := { s.light with window := none, emitter := .off } } := by
  unfold State.stopAim
  rw [State.enter_stopped, State.finishAim_frame s ho o hno]
  dsimp only
  rw [ho]

/-- An aim that an event stops (R97, R98): `v` is the state after the event's own changes, which leave what the closing
reads. -/
theorem State.closed_stopAim {s v : State} {a : Aim} {r : TargetRecord} (o : AimOutcome)
    (hno : o = .faulted ∨ o = .aborted ∨ o = .abandoned) (hv : v.table = s.table ∧ v.engine = s.engine ∧
      v.setup = s.setup ∧ v.clock = s.clock) (ha : s.engine.aim = some a) (hr : s.table[a.slot]? = some (some r)) :
    ∃ p q, (s.closeObservation none true).table[a.slot]? = some (some p) ∧
      p = { r with fixA := p.fixA, fixB := p.fixB, velocity := p.velocity } ∧ p.EndedAs s.clock o q ∧
      ∀ h x : Drive, ({ v.closeObservation none true with hz := h, vt := x } : State).stopAim o = { v with
        table := (s.closeObservation none true).table.set a.slot (some q)
        engine := ⟨.stopped, none, none, none, s.engine.sequence, false⟩
        hz := h
        vt := x
        light := { v.light with window := none, emitter := .off }
        link := (v.closeObservation none true).link } := by
  obtain ⟨p, hp, hpe⟩ := State.closeObservation_record none s _ _ hr
  have hf := State.closeObservation_none_from true hv.1 hv.2.1 hv.2.2.1
  have he : (s.closeObservation none true).engine = { s.engine with openObs := none } := by
    rw [State.closeObservation_none_frame s true]
  rw [he] at hf
  refine ⟨p, _, hp, hpe, TargetRecord.endAim_endedAs s.clock (a.lastLock.getD s.clock) a.ranged o p hno, ?_⟩
  intro h x
  generalize (v.closeObservation none true).link = L at *
  rw [hf, ← hv.2.2.2]
  exact State.stopAim_stopped (s := { v with
    table := (s.closeObservation none true).table, engine := { s.engine with openObs := none }, hz := h, vt := x, link := L })
    o hno rfl ha hp

/-- A stop request to both axes (R97). -/
theorem State.stopAxes_eq (s : State) : s.stopAxes = { s with hz := s.hz.stop .hz, vt := s.vt.stop .vt } := rfl

/-- PAUSE in a running aim (R97). -/
theorem State.pauseEngine_running {s : State} {a : Aim} {r : TargetRecord} (hs : s.engine.state.isRunningAim = true)
    (ha : s.engine.aim = some a) (hr : s.table[a.slot]? = some (some r)) :
    ∃ p q, (s.closeObservation none true).table[a.slot]? = some (some p) ∧
      p = { r with fixA := p.fixA, fixB := p.fixB, velocity := p.velocity } ∧ p.EndedAs s.clock .aborted q ∧
      s.pauseEngine = { s.closeObservation none true with
        table := (s.closeObservation none true).table.set a.slot (some q)
        engine := ⟨.stopped, none, none, none, s.engine.sequence, false⟩
        hz := s.hz.stop .hz
        vt := s.vt.stop .vt
        light := { s.light with window := none, emitter := .off } } := by
  obtain ⟨p, q, h1, h2, h3, h4⟩ := State.closed_stopAim (s := s) (v := s) .aborted (.inr (.inl rfl)) ⟨rfl, rfl, rfl, rfl⟩ ha hr
  refine ⟨p, q, h1, h2, h3, ?_⟩
  have hp : s.pauseEngine = ((s.closeObservation none true).stopAxes).stopAim .aborted := by
    unfold State.pauseEngine
    revert hs
    cases s.engine.state <;> first | (intro _; rfl) | (intro h; exact absurd h (by decide))
  have hf := State.closeObservation_none_frame s true
  have hd : (s.closeObservation none true).hz = s.hz ∧ (s.closeObservation none true).vt = s.vt := by
    rw [hf]; exact ⟨rfl, rfl⟩
  rw [hp, State.stopAxes_eq, hd.1, hd.2, h4]
  rw [State.closeObservation_none_from true rfl rfl rfl]

/-- What a fault of a drive outside FAULT does (R120, R98), and R128 after it. -/
theorem State.faultDrive_taken (ax : Axis) (code : FaultCode) {s : State} (hc : s.EngineConsistent)
    (hd : (s.drive ax).state ≠ .fault) : State.FaultTaken ax code s (s.faultDrive ax code).followLight := by
  obtain ⟨v, hv⟩ : ∃ v, v = (s.onDrive ax (Drive.takeFault code)).raise .axisFault := ⟨_, rfl⟩
  have hf : s.faultDrive ax code = v.engineFault ax := by unfold State.faultDrive; rw [if_neg hd, ← hv]
  have hvd : v.drive ax = { s.drive ax with
      state := .fault, fault := some code, target := none, pendingTarget := none, returnState := none, capture := none
      travel := 0, settleEnd := none, interval := none, reporting := false } := by
    rw [hv]
    unfold State.onDrive Drive.takeFault
    rw [if_neg hd]
    cases ax <;> rfl
  have hvo : v.drive (otherAxis ax) = s.drive (otherAxis ax) := by rw [hv]; cases ax <;> rfl
  have hvs : v = { s with hz := v.hz, vt := v.vt, link := s.link.faultRaised } := by rw [hv]; cases ax <;> rfl
  obtain ⟨w1, w2, w3, w4, w5⟩ := hc
  rw [hf]
  have hve : v.engine = s.engine := by rw [hvs]
  have hvl : v.light = s.light := by rw [hvs]
  have hwin : s.engine.state.makesWindows = false → s.light.window = none := by
    intro h; rw [h] at w5; exact Option.not_isSome_iff_eq_none.mp (by rw [w5]; decide)
  have hopen : s.engine.state ≠ .ranging → s.engine.state ≠ .tracking → s.engine.openObs = none := by
    intro h1 h2
    by_contra h
    rcases w4 (Option.isSome_iff_ne_none.mpr h) with h' | h'
    · exact h1 h'
    · exact h2 h'
  have hidle : s.engine.state.isAim = false → s.engine.aim = none ∧ s.engine.suspension = none ∧ s.engine.openObs = none := by
    intro h
    rw [h] at w1
    have hn : s.engine.state ≠ .suspended ∧ s.engine.state ≠ .ranging ∧ s.engine.state ≠ .tracking := by
      refine ⟨?_, ?_, ?_⟩ <;> (intro hh; rw [hh] at h; exact absurd h (by decide))
    rw [decide_eq_false hn.1] at w2
    exact ⟨Option.not_isSome_iff_eq_none.mp (by rw [w1]; decide), Option.not_isSome_iff_eq_none.mp (by rw [w2]; decide),
      hopen hn.2.1 hn.2.2⟩
  by_cases ha : s.engine.state.isAim = true
  · have hst : s.engine.state ≠ .stopped := by intro h; rw [h] at ha; exact absurd ha (by decide)
    obtain ⟨a, haa⟩ := Option.isSome_iff_exists.mp (w1.trans ha)
    have hcv := State.closeObservation_none_frame v true
    obtain ⟨H, X, hw, hH, hX⟩ : ∃ H X : Drive, v.engineFault ax =
        ({ v.closeObservation none true with hz := H, vt := X } : State).stopAim .faulted ∧
        H = (if ax = .vt ∧ s.engine.state.isRunningAim = true then v.hz.stop .hz else v.hz) ∧
        X = (if ax = .hz ∧ s.engine.state.isRunningAim = true then v.vt.stop .vt else v.vt) := by
      refine ⟨_, _, ?_, rfl, rfl⟩
      unfold State.engineFault
      rw [hve]
      have hgo : s.engine.state.isRunningAim = true →
          ((v.closeObservation none true).stopAxis (otherAxis ax)) =
            ({ v.closeObservation none true with
              hz := if ax = .vt ∧ s.engine.state.isRunningAim = true then v.hz.stop .hz else v.hz
              vt := if ax = .hz ∧ s.engine.state.isRunningAim = true then v.vt.stop .vt else v.vt } : State) := by
        intro hr
        rw [hr]
        generalize v.closeObservation none true = y at *
        rw [hcv]
        cases ax <;> rfl
      by_cases hsus : s.engine.state = .suspended
      · have hr : s.engine.state.isRunningAim = false := by rw [hsus]; rfl
        have hc0 : v.closeObservation none true = v := by
          unfold State.closeObservation; rw [hve, hopen (by rw [hsus]; decide) (by rw [hsus]; decide)]
        rw [hc0, hr, hsus]
        simp
      · have hr : s.engine.state.isRunningAim = true := by
          unfold EngineState.isRunningAim; rw [ha, decide_eq_true hsus]; rfl
        rw [← hgo hr]
        revert hst hsus ha
        cases s.engine.state <;> intros <;> first | rfl | contradiction
    have hfr := State.stopAim_frame (s := { v.closeObservation none true with hz := H, vt := X }) .faulted (.inl rfl)
      (by show (v.closeObservation none true).engine.openObs = none; rw [hcv])
    have hall : v.engineFault ax = { v with
        table := (v.engineFault ax).table
        engine := ⟨.stopped, none, none, none, s.engine.sequence, false⟩
        hz := H
        vt := X
        light := { s.light with window := none, emitter := .off }
        link := (v.closeObservation none true).link } := by
      rw [hw]
      generalize State.stopAim .faulted _ = z at *
      generalize v.closeObservation none true = y at *
      rw [hfr, hcv, hve, hvl]
    have haim : ∀ r, s.table[a.slot]? = some (some r) → ∃ p q, (s.closeObservation none true).table[a.slot]? = some (some p) ∧
        p = { r with fixA := p.fixA, fixB := p.fixB, velocity := p.velocity } ∧ p.EndedAs s.clock .faulted q ∧
        (v.engineFault ax).table = (s.closeObservation none true).table.set a.slot (some q) := by
      intro r hr
      obtain ⟨p, q, h1, h2, h3, h4⟩ := State.closed_stopAim (s := s) (v := v) .faulted (.inl rfl)
        ⟨by rw [hvs], hve, by rw [hvs], by rw [hvs]⟩ haa hr
      exact ⟨p, q, h1, h2, h3, by rw [hw, h4]⟩
    have hlink : (v.closeObservation none true).link = (s.closeObservation none true).link.faultRaised := by
      have h1 : v.link = (s.raise .axisFault).link := by rw [hvs]; rfl
      rw [State.closeObservation_link_congr none true (s := s.raise .axisFault) h1 (by rw [hve]; rfl) (by rw [hvs]; rfl),
        State.closeObservation_link_raise]
      rfl
    rw [hlink] at hall
    clear hfr hw hcv hlink
    generalize v.engineFault ax = t at *
    obtain ⟨T, hT⟩ : ∃ T, T = t.table := ⟨_, rfl⟩
    rw [← hT] at hall haim
    rw [State.followLight_unlit (s := t) (by rw [hall]; rfl), hall]
    clear hall hT
    refine ⟨?_, ?_, ?_, ?_, fun h => absurd (ha.symm.trans h) (by decide), ?_, rfl, ?_⟩
    · rw [← hvd]; cases ax
      · rw [if_neg (by simp)] at hH; exact hH
      · rw [if_neg (by simp)] at hX; exact hX
    · intro hr
      rw [← hvo]
      rw [hr] at hH hX
      cases ax
      · rw [if_pos ⟨rfl, rfl⟩] at hX; rw [hX]; exact Drive.stop_stopped _ _
      · rw [if_pos ⟨rfl, rfl⟩] at hH; rw [hH]; exact Drive.stop_stopped _ _
    · intro hr
      rw [← hvo]
      rw [hr] at hH hX
      cases ax
      · rw [if_neg (by simp)] at hX; exact hX
      · rw [if_neg (by simp)] at hH; exact hH
    · rw [if_neg hst]
    · intro a' r _ ha' hr
      obtain rfl : a' = a := Option.some.inj (ha'.symm.trans haa)
      obtain ⟨p, q, h1, h2, h3, h4⟩ := haim r hr
      refine ⟨_, p, q, fun _ => State.closeObservation_openClosed s, ?_, h1, h2, h3, h4, rfl⟩
      intro hs
      unfold State.closeObservation; rw [hopen (by rw [hs]; decide) (by rw [hs]; decide)]
    · rw [hvs]
  · have ha := Bool.eq_false_iff.mpr ha
    obtain ⟨e1, e2, e3⟩ := hidle ha
    have hrun : s.engine.state.isRunningAim = false := by unfold EngineState.isRunningAim; rw [ha]; rfl
    have hm : s.engine.state.makesWindows = false := by
      revert ha; cases s.engine.state <;> decide
    have hE : v.engine = ⟨s.engine.state, none, none, none, s.engine.sequence, s.engine.dwelling⟩ := by
      rw [hve, ← e1, ← e2, ← e3]
    have hwl : ({ s.light with emitter := .off } : Light) = { s.light with window := none, emitter := .off } := by
      rw [← hwin hm]
    have heq : (v.engineFault ax).followLight = { v with
        engine := ⟨.stopped, none, none, none, s.engine.sequence, if s.engine.state = .stopped then s.engine.dwelling else false⟩
        light := { s.light with window := none, emitter := .off } } := by
      unfold State.engineFault
      rw [hve]
      cases hs : s.engine.state <;> rw [hs] at ha <;> first | exact absurd ha (by decide) | skip
      · dsimp only
        rw [State.followLight_unlit (by unfold Engine.wantsLight; rw [hve, hs]), hvl, ← hs, if_pos rfl, hE, hwl]
      · dsimp only
        rw [State.followLight_unlit (by rw [State.enter_engine]; rfl), State.enter_stopped, hve, hvl]
        dsimp only
        rw [e1, e2, e3]
        rfl
    rw [heq]
    refine ⟨?_, fun h => absurd (hrun.symm.trans h) (by decide), fun _ => ?_, rfl, fun _ => ⟨by rw [hvs], by rw [hvs]⟩,
      fun _ _ h => absurd (ha.symm.trans h) (by decide), rfl, by rw [hvs]⟩
    · rw [← hvd]; cases ax <;> rfl
    · rw [← hvo]; cases ax <;> rfl

/-! ### The start of the site hold -/

/-- What the start of the hold does to a drive (R123). -/
theorem Drive.holdStart_held (d : Drive) : DriveHeld d d.holdStart := by
  unfold Drive.holdStart Drive.brake
  constructor <;> intro h
  · rcases h with h | h | h | h <;> rw [h]
  · rw [h]
  · rcases h with h | h | h <;> rw [h]

/-- The engine SUSPENDED: no window and no light. -/
theorem State.enter_suspended (s : State) : s.enter .suspended = { s with
    engine := { s.engine with state := .suspended, dwelling := false }
    light := { s.light with window := none, emitter := .off } } := by
  unfold State.enter State.dropWindow
  simp [EngineState.makesWindows, Engine.wantsLight]

/-- A suspension leaves the line as it is (R100). -/
theorem State.suspendAim_line (s : State) : s.suspendAim.line = s.line := by
  unfold State.suspendAim
  split
  · rw [State.enter_suspended, State.closeObservation_none_frame]; rfl
  · rfl

/-- The start of the hold leaves the line and the peers as the source has set them, and the time as it is. -/
theorem State.holdBegins_line (s : State) : s.holdBegins.line = s.line ∧ s.holdBegins.peers = s.peers ∧
    s.holdBegins.clock = s.clock ∧ s.holdBegins.fine = s.fine := by
  refine ⟨?_, ?_, ?_, ?_⟩ <;>
    simp [State.holdBegins, State.onDrive, State.setDrive, State.drive, State.raise, State.suspendAim_line]

/-- A break request changes the line alone, and not its receiver (R157). -/
theorem State.requestBreak_frame (s : State) : s.requestBreak = { s with line := s.requestBreak.line } ∧
    s.requestBreak.line.receiver = s.line.receiver := by
  unfold State.requestBreak
  split <;> exact ⟨rfl, rfl⟩

/-- What the start of the hold does (R173, R100, R123), and R128 after it: `v` is the state with the source in force, and
`l` the line after the source's break request, if it makes one. -/
theorem State.holdBegins_started {s v : State} (l : SiteLine) (hv : v = { s with line := v.line, peers := v.peers })
    (hh : v.held = true) (hl : l.receiver = v.line.receiver) (hc : s.EngineConsistent) :
    State.HoldStarted s ({ v.holdBegins with line := l } : State).followLight := by
  obtain ⟨w1, w2, w3, w4, w5⟩ := hc
  have hve : v.engine = s.engine := by rw [hv]
  have hz : v.hz = s.hz ∧ v.vt = s.vt := by rw [hv]; exact ⟨rfl, rfl⟩
  by_cases hr : s.engine.state.isRunningAim = true
  · have ha : s.engine.state.isAim = true := by
      unfold EngineState.isRunningAim at hr; exact (Bool.and_eq_true_iff.mp hr).1
    obtain ⟨a, haa⟩ := Option.isSome_iff_exists.mp (w1.trans ha)
    have hlink : ((v.raise .holdChanged).closeObservation none true).link =
        (s.closeObservation none true).link.holdRaised := by
      rw [State.closeObservation_link_raise none true]
      unfold State.raise
      dsimp only
      rw [State.closeObservation_link_congr none true (s := s) (by rw [hv]) (by rw [hve]) (by rw [hv])]
      rfl
    have hsus : (v.raise .holdChanged).suspendAim = { v with
        table := (s.closeObservation none true).table
        link := (s.closeObservation none true).link.holdRaised
        light := { s.light with window := none, emitter := .off }
        engine := { s.engine with
          state := .suspended
          dwelling := false
          openObs := none
          suspension := some ⟨a.slot, a.prism, s.engine.state, a.attempt, a.source, a.index, s.clock⟩
          aim := some { a with
            dwellDeadline := none, nextSample := none, waitDeadline := none, awaitHz := false, awaitVt := false
            inTolerance := 0, nonOwn := 0, mixed := 0, abandonDeadline := some (s.clock + 10000) } } } := by
      have hst : (v.raise .holdChanged).engine.state = s.engine.state := by rw [← hve]; rfl
      unfold State.suspendAim
      rw [hst, if_pos hr, State.closeObservation_none_from (s := s) (t := v.raise .holdChanged) true (by rw [hv]; rfl)
        hve (by rw [hv]; rfl), hlink, State.closeObservation_none_frame s true, State.enter_suspended]
      unfold State.onAim State.raise
      dsimp only
      rw [haa]
      generalize (s.closeObservation none true).table = T
      generalize (s.closeObservation none true).link = L
      rw [hv]
      rfl
    have hbeg : v.holdBegins = { (v.raise .holdChanged).suspendAim with hz := s.hz.holdStart, vt := s.vt.holdStart } := by
      rw [← hz.1, ← hz.2]
      unfold State.holdBegins
      rw [hsus]
      rfl
    rw [hbeg, hsus, State.followLight_held (by rw [← hh]; exact State.held_congr rfl hl)]
    refine ⟨?_, rfl, ⟨Drive.holdStart_held _, Drive.holdStart_held _⟩, fun h => absurd (hr.symm.trans h) (by decide), ?_, ?_⟩
    · rw [← hh]; exact State.held_congr rfl hl
    · rintro b - hb
      obtain rfl : b = a := Option.some.inj (hb.symm.trans haa)
      exact ⟨_, State.closeObservation_openClosed s, rfl, rfl, rfl, rfl⟩
    · rw [hv]
  · have hbeg : v.holdBegins = { v with hz := s.hz.holdStart, vt := s.vt.holdStart, link := s.link.holdRaised } := by
      have hst : (v.raise .holdChanged).engine.state = s.engine.state := by rw [← hve]; rfl
      unfold State.holdBegins State.suspendAim
      rw [hst, if_neg hr, ← hz.1, ← hz.2, show s.link = v.link by rw [hv]]
      rfl
    rw [hbeg, State.followLight_held (by rw [← hh]; exact State.held_congr rfl hl)]
    refine ⟨?_, rfl, ⟨Drive.holdStart_held _, Drive.holdStart_held _⟩, fun _ => ⟨hve, by rw [hv], rfl, by rw [hv]⟩,
      fun _ h => absurd h hr, ?_⟩
    · rw [← hh]; exact State.held_congr rfl hl
    · rw [hv]
/-! ### The resumption of an aim -/

/-- The engine goes on from SUSPENDED into SEARCHING, not dwelling: a new window begins, in the dark (R103, R130). -/
theorem State.enter_searching_new (s : State) (h : s.engine.state.makesWindows = false) : s.enter .searching = { s with
    engine := { s.engine with state := .searching, dwelling := false }
    light := { s.light with window := some ⟨s.instant, [], []⟩, emitter := .off } } := by
  unfold State.enter State.beginWindow State.instant
  rw [h]
  simp [EngineState.makesWindows, Engine.wantsLight]

/-- The engine SLEWING: no window and no light. -/
theorem State.enter_slewing (s : State) : s.enter .slewing = { s with
    engine := { s.engine with state := .slewing, dwelling := false }
    light := { s.light with window := none, emitter := .off } } := by
  unfold State.enter State.dropWindow
  simp [EngineState.makesWindows, Engine.wantsLight]

/-- A resumed aim (R103): back to its search position, or slewing to the fresh direction. -/
theorem State.resumeAim_eq {s : State} {a : Aim} (u : Suspension) (r : TargetRecord) (d : Direction)
    (ha : s.engine.aim = some a) (hs : s.engine.state = .suspended) :
    s.resumeAim u r d = if u.state = .searching then
      { s with
        engine := { s.engine with
          state := .searching
          dwelling := false
          suspension := none
          aim := some { a with
            abandonDeadline := none, reslews := 0, index := u.index, dwellCount := 0, awaitHz := true, awaitVt := true } }
        hz := s.hz.move .hz s.clock (searchPosition a.centre u.index).hz
        vt := s.vt.move .vt s.clock (searchPosition a.centre u.index).v
        light := { s.light with window := some ⟨s.instant, [], []⟩, emitter := .off } }
    else
      { s with
        engine := { s.engine with
          state := .slewing
          dwelling := false
          suspension := none
          aim := some { a with
            abandonDeadline := none, reslews := 0, centre := ⟨d.hz, d.v⟩, centreSd := d.sd
            width := r.widthAt s.clock d.sd, rings := ringCount (r.widthAt s.clock d.sd), index := 0, dwellCount := 0
            awaitHz := true, awaitVt := true } }
        hz := s.hz.move .hz s.clock d.hz
        vt := s.vt.move .vt s.clock d.v
        light := { s.light with window := none, emitter := .off } } := by
  unfold State.resumeAim
  by_cases h : u.state = .searching
  · simp only [h, if_true]
    unfold State.searchAt State.onAim
    dsimp only
    rw [ha]; dsimp only [Option.map_some]
    rw [State.enter_searching_new _ (by show s.engine.state.makesWindows = false; rw [hs]; rfl), State.moveAxes_eq]
    rfl
  · simp only [h, if_false]
    unfold State.onAim
    dsimp only
    rw [ha]; dsimp only [Option.map_some]
    rw [State.enter_slewing, State.moveAxes_eq]
    rfl

/-! ### The second report of a slew -/

@[simp] theorem State.withAim_onAim (f : Aim → Aim) (b : Aim) (s : State) : (s.withAim b).onAim f = s.withAim (f b) := rfl

/-- The engine goes on from SLEWING into ACQUIRING: a new window begins and the emitter stands (R77, R130). -/
theorem State.enter_acquiring (s : State) (h : s.engine.state = .slewing) : s.enter .acquiring = { s with
    engine := { s.engine with state := .acquiring, dwelling := false }
    light := { s.light with window := some ⟨s.instant, [], []⟩ } } := by
  unfold State.enter State.beginWindow State.instant
  rw [h]
  simp [EngineState.makesWindows, Engine.wantsLight]

/-- Entry to ACQUIRING (R77, R74, R53). -/
theorem State.enterAcquiring_eq {s : State} (b : Aim) (h : s.engine.state = .slewing) :
    (s.withAim b).enterAcquiring = { s with
      engine := { s.engine with
        state := .acquiring
        dwelling := false
        aim := some { b with
          inTolerance := 0, nonOwn := 0, mixed := 0, codeSeen := false, ownSince := false, dwellCount := 0
          sector := match b.sector with
            | some k => some k
            | none => s.setup.map fun x => sectorOf (azimuthOf x b.centre.hz) } }
      light := { s.light with window := some ⟨s.instant, [], []⟩ } } := by
  unfold State.enterAcquiring
  rw [State.withAim_onAim, State.enter_acquiring _ (by exact h)]
  rfl

/-- The second report of a slew (R77), the aim being `b` on the record `r`: a re-slew when the fresh direction lies more than
W/2 off and fewer than two have been made, and else ACQUIRING; without a direction ACQUIRING about what the aim holds. -/
theorem State.slewEnd_eq {s : State} (b : Aim) :
    (∀ r g, s.table[b.slot]? = some (some r) → s.sourceDirection b.source r = some g →
      (beyondHalfWidth (r.widthAt s.clock g.sd) g.hz g.v b.centre.hz b.centre.v = true → b.reslews < 2 →
        (s.withAim b).slewEnd = (s.withAim { b with
          centre := ⟨g.hz, g.v⟩, centreSd := g.sd, width := r.widthAt s.clock g.sd
          rings := ringCount (r.widthAt s.clock g.sd), reslews := b.reslews + 1 }).moveAxes ⟨g.hz, g.v⟩) ∧
      (beyondHalfWidth (r.widthAt s.clock g.sd) g.hz g.v b.centre.hz b.centre.v = false ∨ 2 ≤ b.reslews →
        (s.withAim b).slewEnd = (s.withAim { b with
          centreSd := g.sd, width := r.widthAt s.clock g.sd
          rings := ringCount (r.widthAt s.clock g.sd) }).enterAcquiring)) ∧
    ((∀ r : TargetRecord, s.table[b.slot]? = some (some r) → s.sourceDirection b.source r = none) →
      (s.withAim b).slewEnd = (s.withAim b).enterAcquiring) := by
  have ha : (s.withAim b).engine.aim = some b := rfl
  have hrec : ∀ r, s.table[b.slot]? = some (some r) → (s.withAim b).record b.slot = some r :=
    fun r h => State.record_of_table (s := s.withAim b) h
  have hsrc : ∀ r, (s.withAim b).sourceDirection b.source r = s.sourceDirection b.source r := fun _ => rfl
  have hclk : (s.withAim b).clock = s.clock := rfl
  refine ⟨fun r g hr hg => ⟨fun h1 h2 => ?_, fun h => ?_⟩, fun hno => ?_⟩
  · unfold State.slewEnd
    rw [ha]; dsimp only
    rw [hrec r hr, Option.bind_some, hsrc, hg]; dsimp only [Option.map_some]
    rw [hclk, if_pos ⟨h1, h2⟩, State.withAim_onAim, State.withAim_onAim]
  · have hn : ¬ (beyondHalfWidth (r.widthAt s.clock g.sd) g.hz g.v b.centre.hz b.centre.v = true ∧ b.reslews < 2) := by
      rintro ⟨h1, h2⟩
      rcases h with h | h
      · rw [h] at h1; cases h1
      · omega
    unfold State.slewEnd
    rw [ha]; dsimp only
    rw [hrec r hr, Option.bind_some, hsrc, hg]; dsimp only [Option.map_some]
    rw [hclk, if_neg hn, State.withAim_onAim]
  · unfold State.slewEnd
    rw [ha]; dsimp only
    cases hr : (s.withAim b).record b.slot with
    | none => rfl
    | some r =>
      have : s.table[b.slot]? = some (some r) := by
        have h : (s.table[b.slot]?).getD none = some r := hr
        cases hq : s.table[b.slot]? with
        | none => rw [hq] at h; cases h
        | some q => rw [hq] at h; exact congrArg some h
      rw [Option.bind_some, hsrc, hno r this]
      rfl

/-- An ARRIVED report of an axis (R77, R81, R114): counted while that axis' move is awaited, in SLEWING and SEARCHING. -/
theorem State.takeArrived_eq (ax : Axis) (s : State) :
    (s.engine.aim = none ∨ s.engine.state ≠ .slewing ∧ s.engine.state ≠ .searching → s.takeArrived ax = s) ∧
    ∀ (a : Aim) (mine other : Bool) (b : Aim), s.engine.state = .slewing ∨ s.engine.state = .searching →
      s.engine.aim = some a →
      (mine, other) = (match ax with | .hz => (a.awaitHz, a.awaitVt) | .vt => (a.awaitVt, a.awaitHz)) →
      b = (match ax with | .hz => { a with awaitHz := false } | .vt => { a with awaitVt := false }) →
      s.takeArrived ax = if mine = false then s else if other then s.withAim b
        else if s.engine.state = .slewing then (s.withAim b).slewEnd else (s.withAim b).beginDwell := by
  constructor
  · rintro (h | h) <;> unfold State.takeArrived
    · rw [h]
    · cases s.engine.aim with
      | none => rfl
      | some a => dsimp only; rw [if_pos h]
  · intro a mine other b hs ha hmo hb
    have hn : ¬ (s.engine.state ≠ .slewing ∧ s.engine.state ≠ .searching) := by
      rintro ⟨h1, h2⟩; rcases hs with h | h <;> contradiction
    unfold State.takeArrived
    rw [ha]; dsimp only; rw [if_neg hn]
    cases ax <;> cases hmo <;> subst hb <;> unfold State.onAim <;> rw [ha] <;> rfl

end Sys2Proof.Machine
end

