-- ==== Sys2Proof/Tests/Slice0.lean ====
section
/-! SUPPORT. Tests of the model on fixed values, each expected value taken from the manual's worked cases or worked out by
hand from its rules, and for every obligation with hypotheses a witness that they can be met. -/

namespace Sys2Proof.Tests

set_option Elab.async false

open Sys2Proof Sys2Proof.Machine
open Host (Outcome)

/-! ### States the tests start from -/

/-- The station setup of the worked cases (R11). -/
def setup : Setup := ⟨1000000, 2000000, 50000, 1600, 100000⟩

/-- The prism position of the first worked case of R11. -/
def northEast : Grid := ⟨1030000, 2040000, 56600⟩

/-- Its direction (R11). -/
def direction : Direction := ⟨409666, 309666, 936549, 50000, 50249⟩

/-- A drive that stands READY and indexed at a position. -/
def stood (at_ : Int) : Drive :=
  { Drive.reset with
    state := .ready, indexed := true, known := true, midpoint := some 0, offset := some at_, target := some at_ }

/-- Station 5 of group 2 at clock 1,000, with its setup, both axes READY on the direction above, the engine STOPPED. -/
def ready : State :=
  { State.reset with
    clock := 1000
    setup := some setup
    config := some ⟨5, 2⟩
    hz := stood 309666
    vt := stood 936549
    light := { Light.reset with beam := some ⟨36, 140⟩ } }

/-- MACHINE prism 12 of the worked cases, with fix A at the position above. -/
def machine12 : TargetRecord where
  prism := 12
  cls := .machine
  blink := some 7
  loadTime := 0
  nominal := none
  fixA := some ⟨northEast, 500, .own, 15⟩
  fixB := none
  velocity := none
  interval := 500
  dwell := some 2000
  due := 900
  misses := 0
  lost := false
  state := .idle
  deferUntil := none
  lastOutcome := none
  dueArmed := true
  deferArmed := false

/-- MONITOR prism 31, with a nominal position at the same place and no fix. -/
def monitor31 : TargetRecord :=
  { machine12 with prism := 31, cls := .monitor, blink := none, nominal := some northEast, fixA := none, dwell := none }

/-- A Target Table with one record, in slot 3. -/
def tableOf (r : TargetRecord) : List (Option TargetRecord) :=
  List.replicate 3 none ++ some r :: List.replicate 28 none

/-- `ready` with one record in slot 3. -/
def holding (r : TargetRecord) : State := { ready with table := tableOf r }

/-- The aim handed over on prism 12 in slot 3. -/
def aim12 : Aim := newAim 1000 3 machine12 direction

/-- The engine in an aim state with an aim on prism 12, a window that has run its time in progress where windows are
made, and the emitter as R128 has it. -/
def aiming (e : EngineState) (a : Aim) (o : Option OpenObs) : State :=
  State.followLight
    { ready with
      table := tableOf { machine12 with state := .active }
      engine := ⟨e, some a, none, o, 64, false⟩
      light := { ready.light with window := if e.makesWindows then some ⟨1000 * 72000 - 108288, [], []⟩ else none } }

/-- The open LOCK observation of the aim. -/
def lock63 : OpenObs := ⟨63, .lock, 12, 950, 309670, 936550, true, 50249⟩

/-- The suspend record of an aim suspended in SEARCHING at index 12 at clock 500 (R100). -/
def suspension : Suspension := ⟨3, 12, .searching, 1, .predicted, 12, 500⟩

/-- An aim suspended, the hold over again, both axes READY. -/
def suspended : State :=
  { aiming .suspended { aim12 with abandonDeadline := some 10500 } none with
    engine := ⟨.suspended, some { aim12 with abandonDeadline := some 10500 }, some suspension, none, 64, false⟩ }

/-- `ready` with an observation queued. -/
def observed : Observation := ⟨1, .lock, 12, 900, 309666, 936549, .angleOnly, none, none, false⟩

/-- The part under a hold by HOLD_IN, both drives BRAKED. -/
def held : State :=
  { ready with
    hz := { (stood 309666).brake .settling with bridgeFault := false }
    vt := (stood 936549).brake .settling
    peers := { PeerExchange.reset with holdIn := true, repeatDeadline := some 1000 } }

/-- The state a step answers with. -/
def after (o : Outcome State Fault Refusal) : Option State :=
  match o with
  | .next t => some t
  | _ => none

/-- The answer in the slot after a command. -/
def answerOf (c : Instr) (s : State) : Option Answer := (after (exec c s)).bind fun t => t.link.slot.map Response.answer

/-! ### Worked cases -/

/-- R11, first worked case. -/
theorem test_direction_north_east : directionTo (some setup) northEast = .given direction := by decide +kernel

/-- R11, second worked case: due west, level. -/
theorem test_direction_due_west :
    directionTo (some setup) ⟨960000, 2000000, 51600⟩ = .given ⟨3000000, 2900000, 1000000, 40000, 40000⟩ := by
  decide +kernel

/-- R12, third worked case. -/
theorem test_direction_unaimable :
    directionTo (some setup) ⟨1001000, 2001500, 51600⟩ = .tooClose ∧
      directionTo (some setup) ⟨1003000, 2004000, 81600⟩ = .outOfLimits ∧
        directionTo (some setup) ⟨2500000, 2000000, 51600⟩ = .given ⟨1000000, 900000, 1000000, 1500000, 1500000⟩ := by
  decide +kernel

/-- R14 and R15, worked case. -/
theorem test_windows_for_one_position :
    halfWidth .monitor 10000 50249 = 506 ∧ halfWidth .control 3600000 50249 = 253 ∧
      halfWidth .machine 1500 50249 = 11402 ∧ ringCount 11402 = 1 ∧ halfWidth .machine 30000 50249 = 60000 ∧
        ringCount 60000 = 5 := by decide +kernel

/-- R16, worked cases. -/
theorem test_slew_estimate :
    slewEstimate 309666 936549 3900000 1000000 = 314 ∧ slewEstimate 309666 936549 2309666 160000 = 1374 := by
  decide +kernel

/-- R35, worked case, third row: held and truncated. -/
theorem test_velocity_held :
    velocityOf .machine (some ⟨⟨-1250, 3800, -7⟩, 400, .own, 15⟩) (some ⟨⟨0, 0, 0⟩, 0, .own, 15⟩) =
      some ⟨-3125, 8000, -17⟩ := by decide +kernel

/-- R36, worked case: 333 ms of motion, and the span held at 2,000. -/
theorem test_prediction_span :
    let r := { machine12 with fixA := some ⟨⟨500000, 700000, 20000⟩, 100000, .own, 15⟩, velocity := some ⟨-7500, 2333, 0⟩ }
    r.prediction 100333 = some ⟨497503, 700776, 20000⟩ ∧ r.prediction 160000 = some ⟨485000, 704666, 20000⟩ := by
  decide +kernel

/-- R45, worked case. -/
theorem test_sector_of_reading :
    sectorOf (azimuthOf setup 309666) = 6 ∧ sectorOf (azimuthOf setup 2900000) = 48 ∧
      sectorOf (azimuthOf setup 3900000) = 0 := by decide +kernel

/-- R80, the table of offsets. -/
theorem test_search_offsets :
    searchOffset 0 = (0, 0) ∧ searchOffset 1 = (-1, -1) ∧ searchOffset 8 = (-1, 0) ∧ searchOffset 13 = (2, -2) ∧
      searchOffset 24 = (-2, -1) ∧ searchOffset 120 = (-5, -4) := by decide +kernel

/-- R134, worked cases (b) and (c) at station 3: the class of a window of eight equal periods. -/
theorem test_pairing_foreign_light :
    let period (k : Nat) (at_ : Int) : Pulse := ⟨188 * k + at_, 188 * k + at_ + 6, 0, 0⟩
    let window (ats : List Int) : List Pulse := (List.range 8).flatMap fun k => ats.map (period k)
    let b := windowReport 3 (window [0, 20, 34, 62]) [] 0 0 0
    let c := windowReport 3 (window [0, 26, 34, 52]) [] 0 0 0
    (b.cls, b.ownPairs, b.foreignPairs, b.dominant) = (.mixed, 8, 8, some 5) ∧
      (c.cls, c.ownPairs, c.foreignPairs, c.dominant) = (.foreign, 0, 8, some 1) := by decide +kernel

/-- R148, the worked case of the INTENT of station 9, character by character. -/
theorem test_intent_frame :
    (frameChars ⟨9, 2⟩ 0 (.intent 12 48100 3000)).map (·.toNat) = [35, 9, 12, 0, 187, 228, 11, 184, 164, 45] := by
  decide +kernel

/-- R147: station 5 takes that frame. -/
theorem test_intent_frame_received :
    validate ⟨5, 2⟩ (([35, 9, 12, 0, 187, 228, 11, 184, 164, 45] : List Nat).map Byte.ofNat) =
      .valid 9 (.intent 12 48100 3000) := by decide +kernel

/-- R110, worked case: the HZ index, at rest at 250,460. -/
theorem test_index_edge_hz :
    let d := { Drive.reset with
      state := .indexing, known := true, offset := some 250000, raw := 6999700, capture := some 6999700 }
    (after (exec (.indexEdge .hz false 7000180 7000400) { ready with hz := d })).map
        (fun t => (t.hz.midpoint, t.hz.state, t.hz.position .hz)) = some (some 6999940, .settling, some 250460) := by
  decide +kernel

/-- R118 to R120, worked case: progress of 60 cu in an interval is a stall. -/
theorem test_stall :
    let d := { stood 1004000 with state := .moving, target := some 1012000, interval := some ⟨800, 8000⟩ }
    (after (exec (.progressIntervalEnd .hz 60) { ready with hz := d })).map
        (fun t => (t.hz.state, t.hz.fault, t.faultOut, t.link.events.axisFault)) =
      some (.fault, some .stall, true, true) := by decide +kernel

/-- R126: the gaps of station 3's beam code (28 µs of R134's worked case), and R154's gap of station 5. -/
theorem test_station_values : (beamCode 3).gapA = 28 ∧ accessGap 5 false = 8 ∧ accessGap 5 true = 28 := by decide +kernel

/-- R189, worked case: the mask's set minus the marks. -/
theorem test_ack_events :
    let s := { ready with link := { ready.link with events := { EventSet.clear with observation := true, targetLost := true } } }
    answerOf (.ackEvents (some { EventSet.clear with observation := true, axisFault := true })) s =
      some (.ok (.events { EventSet.clear with targetLost := true })) := by decide +kernel

/-- R50, worked case: a range across north keeps the block counts. -/
theorem test_set_sector_across_north :
    let s := { ready with sectors := (ready.sectors.set 63 ⟨.opened, 400000, 1600000, 3⟩).set 0 ⟨.opened, 200000, 1800000, 1⟩ }
    (after (exec (.setSector (some ⟨62, 1, 2, 100000, 900000⟩)) s)).map
        (fun t => (t.sector 61, t.sector 63, t.sector 0, t.sector 2)) =
      some (⟨.opened, 200000, 1800000, 0⟩, ⟨.masked, 200000, 900000, 3⟩, ⟨.masked, 200000, 900000, 1⟩,
        ⟨.opened, 200000, 1800000, 0⟩) := by decide +kernel

/-- R57 to R76: RUN hands the due record over, to the direction of R11. -/
theorem test_run_hands_over :
    (after (exec (.run true) (holding machine12))).map
        (fun t => (t.engine.state, t.engine.aim.map (·.centre), t.line.queue, (t.record 3).map (·.state))) =
      some (.slewing, some ⟨309666, 936549⟩, [.intent 12 50249 3000], some .active) := by decide +kernel

/-- R94, R17, R33: a RANGE that closes the open observation of a MACHINE prism gives its SIGHTING. -/
theorem test_range_gives_sighting :
    (after (exec (.range (some ⟨63, 50249⟩)) (aiming .tracking { aim12 with lastLock := some 950 } (some lock63)))).map
        (fun t => (t.engine.openObs, t.link.observations.length, t.line.queue.length)) = some (none, 1, 1) := by
  decide +kernel

/-- R178: a command written over an unread response is answered SEQUENCE_ERROR. -/
theorem test_sequence_error :
    answerOf (.pause true) { ready with link := { ready.link with slot := some ⟨18, .ok .none⟩ } } =
      some (.refused .sequenceError) := by decide +kernel

/-- R8: time passes when no command waits, and the idle step leaves the queue alone. -/
theorem test_idle_clock : (after (step State.reset)).map (fun t => (t.clock, t.fine, t.pending)) = some (1, 0, []) := by
  decide +kernel

/-! ### Well-formedness: each check refuses a term -/

/-- R196: an operand too large for its bytes. -/
theorem test_ill_formed_operands :
    (Instr.configure (some ⟨256, 0, 0, 0, 0⟩)).wellFormed = false ∧
      (Instr.setStation (some ⟨0, 0, 2147483648, 0, 0⟩)).wellFormed = false ∧
      (Instr.loadTarget (some ⟨1, 1, 0, some ⟨0, -2147483649, 0⟩, 0, 0⟩)).wellFormed = false ∧
      (Instr.editTarget (some ⟨1, 4294967296, 0, none⟩)).wellFormed = false ∧
      (Instr.retireTarget (some 256)).wellFormed = false ∧ (Instr.readTarget (some 256)).wellFormed = false ∧
      (Instr.setSector (some ⟨0, 0, 1, 16777216, 0⟩)).wellFormed = false ∧
      (Instr.readSector (some ⟨0, 256⟩)).wellFormed = false ∧ (Instr.aimNow (some 256)).wellFormed = false ∧
      (Instr.range (some ⟨65536, 0⟩)).wellFormed = false ∧ (Instr.clearFault (some 256)).wellFormed = false := by
  decide +kernel

/-- R18, R139, R133, R137, R159: an event that names what the part does not have. -/
theorem test_ill_formed_events :
    (Instr.dueTimeExpiry 32).wellFormed = false ∧ (Instr.deferUntilExpiry 32).wellFormed = false ∧
      (Instr.identityCode 64 0).wellFormed = false ∧ (Instr.returnPulse ⟨6, 0, 0, 0⟩).wellFormed = false ∧
      (Instr.returnPulse ⟨0, 6, 8001, 0⟩).wellFormed = false ∧ (Instr.peerRecordExpiry 8).wellFormed = false ∧
      (Instr.intentExpiry 8).wellFormed = false := by decide +kernel

/-! ### Transfers, their bytes written out from R195 and R196 -/

/-- The command a transfer of byte values is taken as. -/
def taken (bytes : List Nat) : Instr := decodeTransfer (bytes.map Byte.ofNat)

/-- SET_SECTOR first 62, last 1, MASKED, vmin 100,000 = 01 86 A0h, vmax 900,000 = 0D BB A0h. -/
theorem test_transfer_set_sector :
    taken [7, 9, 62, 1, 2, 0x01, 0x86, 0xA0, 0x0D, 0xBB, 0xA0] = .setSector (some ⟨62, 1, 2, 100000, 900000⟩) := by
  decide +kernel

/-- LOAD_TARGET 12, MACHINE, blink 7, nominal (-1, 256, 0), interval 500, dwell 2,000. -/
theorem test_transfer_load_target :
    taken [3, 22, 12, 1, 7, 1, 0xFF, 0xFF, 0xFF, 0xFF, 0, 0, 1, 0, 0, 0, 0, 0, 0, 0, 1, 0xF4, 0x07, 0xD0] =
      .loadTarget (some ⟨12, 1, 7, some ⟨-1, 256, 0⟩, 500, 2000⟩) := by decide +kernel

/-- RANGE 117, 50,420 mm; RUN; a RUN whose length byte is 1; code 20; an empty transfer (R177). -/
theorem test_transfer_short :
    taken [12, 5, 0, 117, 0, 0xC4, 0xF4] = .range (some ⟨117, 50420⟩) ∧ taken [9, 0] = .run true ∧
      taken [9, 1, 0] = .run false ∧ taken [20, 0] = .unknownCommand (Byte.ofNat 20) ∧
        taken [] = .unknownCommand (Byte.ofNat 0) := by decide +kernel

/-! ### Witnesses: for each obligation with hypotheses, states and operands that meet them

One conjunct for each clause. Where clauses differ in a number's range, the values are those at its ends. -/

/-- A decidable statement of the invariants that the hypotheses name. -/
theorem ready_linkReady : ready.LinkReady ∧ ready.lightConsistent := by
  unfold State.LinkReady State.lightConsistent; decide +kernel

/-- The one record of `tableOf`. -/
theorem tableOf_some {r q : TargetRecord} {i : Nat} (h : (tableOf r)[i]? = some (some q)) : i = 3 ∧ q = r := by
  unfold tableOf at h
  rcases i with _ | _ | _ | _ | n
  · cases h
  · cases h
  · cases h
  · cases h; exact ⟨rfl, rfl⟩
  · change (List.replicate 28 (none : Option TargetRecord))[n]? = some (some q) at h
    exact absurd (List.mem_of_getElem? h) (by simp)

/-- The one record of `tableOf`, as a member. -/
theorem mem_tableOf {r q : TargetRecord} (h : some q ∈ tableOf r) : q = r := by simpa [tableOf] using h

theorem aiming_table (e : EngineState) (a : Aim) (o : Option OpenObs) :
    (aiming e a o).table = tableOf { machine12 with state := .active } := by simp [aiming]

theorem witness_StepTakesFront : { ready with pending := [.startBit, .run true] }.pending = .startBit :: [.run true] := rfl

theorem witness_IdleStep :
    (State.reset.pending = [] ∧ State.reset.fine < finePerMs ∧ State.reset.outstanding = []) ∧
      ({ State.reset with clock := 10000, fine := 71999 } : State).outstanding ≠ [] := by
  refine ⟨⟨rfl, by decide +kernel, ?_⟩, ?_⟩ <;> decide +kernel

/-- The reset state meets every invariant, and its step answers a next state. -/
theorem witness_StepKeepsLightConsistent : State.reset.lightConsistent ∧ (after (step State.reset)).isSome = true := by
  unfold State.lightConsistent; decide +kernel

theorem witness_StepKeepsAxesStillInHold : held.stillInHold ∧ held.held = true ∧ (after (step held)).isSome = true := by
  unfold State.stillInHold; decide +kernel

theorem witness_StepKeepsDrivesConsistent :
    ready.drivesConsistent ∧ (after (step { ready with pending := [.run true] })).isSome = true :=
  ⟨⟨⟨rfl, rfl, rfl, rfl⟩, ⟨rfl, rfl, rfl, rfl⟩⟩, by decide +kernel⟩

/-- A state in RANGING with its observation open. -/
theorem witness_StepKeepsEngineConsistent :
    (aiming .ranging aim12 (some lock63)).EngineConsistent ∧
      (after (step { aiming .ranging aim12 (some lock63) with pending := [.pause true] })).isSome = true := by
  refine ⟨⟨?_, ?_, ?_, ?_, ?_⟩, ?_⟩ <;> decide +kernel

/-- A state in SLEWING with its record ACTIVE, and a PAUSE waiting. -/
theorem witness_StepKeepsActiveRecord :
    let s := { aiming .slewing aim12 none with pending := [.pause true] };
    s.EngineConsistent ∧ s.ActiveMatches ∧ (after (step s)).isSome = true ∧
      ((after (step s)).bind fun t => (t.record 3).map fun r => (t.engine.state, r.state)) = some (.stopped, .idle) := by
  refine ⟨⟨?_, ?_, ?_, ?_, ?_⟩, ⟨?_, ?_, ?_⟩, ?_, ?_⟩
  case refine_6 =>
    intro i r h _
    rw [show ({ aiming .slewing aim12 none with pending := [.pause true] } : State).table =
      tableOf { machine12 with state := .active } from aiming_table _ _ _] at h
    exact ⟨aim12, rfl, (tableOf_some h).1.symm⟩
  case refine_7 =>
    intro a h
    cases h
    exact ⟨{ machine12 with state := .active }, by decide +kernel, rfl, rfl⟩
  case refine_8 =>
    intro a u _ h
    cases h
  all_goals decide +kernel

theorem witness_StepKeepsSizes :
    State.reset.Sized ∧ (holding machine12).TablesLawful ∧
      (after (step { holding machine12 with pending := [.run true] })).isSome = true := by
  refine ⟨by constructor <;> decide +kernel, ⟨?_, ?_, ?_, ?_, ?_, ?_, ?_⟩, by decide +kernel⟩
  · intro i j r q h1 h2 _; rw [(tableOf_some h1).1, (tableOf_some h2).1]
  · intro i j r q h1 h2 _ _ _; rw [(tableOf_some h1).1, (tableOf_some h2).1]
  · intro r h; rw [mem_tableOf h]; decide
  · decide +kernel
  · decide +kernel
  · decide +kernel
  · intro p; exact Nat.zero_le 1

/-- `ready` holds no record. -/
theorem ready_empty (r : TargetRecord) : some r ∉ ready.table := by simp [ready, State.reset]

/-- `ready` with its command slot taken up. -/
def answered (a : Answer) : State := { ready with link := { ready.link with slot := some ⟨13, a⟩ } }

theorem witness_UnreadResponseDiscardsCommand :
    (Instr.pause true).commandByte = some 10 ∧ (answered (.ok .none)).link.slot.isSome = true ∧
      (answered (.ok .none)).lightConsistent := by
  unfold State.lightConsistent; decide +kernel

theorem witness_LinkTestsRefuse :
    (ready.link.slot = none ∧ ready.lightConsistent) ∧
      (Instr.unknownCommand (Byte.ofNat 20)).commandByte = some 20 ∧
      ((Instr.aimNow none).commandByte = some 11 ∧ (Instr.aimNow none).mismatched = true) ∧
      ((Instr.run true).commandByte = some 9 ∧ (Instr.run true).mismatched = false ∧ State.reset.config = none ∧
        State.reset.link.slot = none ∧ State.reset.lightConsistent) := by
  unfold State.lightConsistent; decide +kernel

/-- The observation's response is 34 bytes long: 33 clocked out are too few. -/
theorem witness_ResponseReadEmptiesSlot :
    ready.link.slot = none ∧ (answered (.ok (.observation observed))).link.slot = some ⟨13, .ok (.observation observed)⟩ ∧
      33 < (responseBytes ⟨13, .ok (.observation observed)⟩).length ∧
      (responseBytes ⟨13, .ok (.none)⟩).length ≤ 4 := by decide +kernel

theorem witness_ReadTargetReports :
    (holding machine12).LinkReady ∧ 31 < 32 ∧ (holding machine12).record 31 = none ∧
      (holding machine12).record 3 = some machine12 := by
  unfold State.LinkReady; decide +kernel

theorem witness_ReadSectorReports :
    ready.LinkReady ∧ (63 < (⟨64, 0⟩ : SectorRange).first ∨ 63 < (⟨64, 0⟩ : SectorRange).last) ∧
      (⟨63, 0⟩ : SectorRange).first ≤ 63 ∧ (⟨63, 0⟩ : SectorRange).last ≤ 63 := by
  unfold State.LinkReady; decide +kernel

theorem witness_TakeObservationReportsHead :
    ready.LinkReady ∧ ready.link.observations = [] ∧
      ({ ready with link := { ready.link with observations := [observed] } } : State).LinkReady := by
  unfold State.LinkReady; decide +kernel

theorem witness_ReadStatusReports : State.reset.link.slot = none := rfl

theorem witness_ReadPeersReports : ready.LinkReady := ready_linkReady.1

theorem witness_AckEventsClearsNamed : ready.LinkReady := ready_linkReady.1

theorem witness_ObservationQueueBounded :
    ready.link.observations = [] ∧ 0 < [observed].length ∧ (List.replicate 15 observed).length < 16 ∧
      16 ≤ (List.replicate 16 observed).length := by decide +kernel

/-- The ends of the ranges of CONFIGURE. -/
theorem witness_ConfigureAccepted :
    State.reset.link.slot = none ∧ State.reset.config = none ∧ State.reset.engine.state = .stopped ∧
      State.reset.lightConsistent ∧ configureInRange ⟨1, 0, 0, 0, 150000⟩ = true ∧
        configureInRange ⟨15, 15, 1, 3999999, 1850000⟩ = true := by
  unfold State.lightConsistent; decide +kernel

theorem witness_ConfigureRefused :
    ready.config.isSome = true ∧ State.reset.config = none ∧ configureInRange ⟨0, 0, 0, 0, 150000⟩ = false ∧
      configureInRange ⟨16, 0, 0, 0, 150000⟩ = false ∧ configureInRange ⟨1, 0, 2, 0, 150000⟩ = false ∧
        configureInRange ⟨1, 0, 0, 4000000, 150000⟩ = false ∧ configureInRange ⟨1, 0, 0, 0, 149999⟩ = false := by
  decide +kernel

theorem witness_ResetClears : ready.link.slot = none := rfl

theorem witness_SetStationWritesSetup :
    ready.LinkReady ∧ ready.lightConsistent ∧ ready.engine.state = .stopped ∧
      stationInRange ⟨-10000000, 10000000, 0, 3000, 3999999⟩ = true ∧ stationInRange ⟨0, 0, 10000001, 0, 0⟩ = false ∧
        stationInRange ⟨0, 0, 0, 3001, 0⟩ = false ∧ ({ ready with engine := { ready.engine with state := .waiting } } : State).engine.state ≠ .stopped := by
  unfold State.LinkReady State.lightConsistent; decide +kernel

theorem witness_LoadTargetFillsLowestSlot :
    ready.LinkReady ∧ classOfCode 1 = some PrismClass.machine ∧ (∀ r : TargetRecord, some r ∈ ready.table → r.prism ≠ 250) ∧
      (∀ r : TargetRecord, some r ∈ ready.table → r.cls = PrismClass.machine → r.blink ≠ some 63) ∧
      ready.table[0]? = some none :=
  ⟨ready_linkReady.1, rfl, fun r h => absurd h (ready_empty r), fun r h => absurd h (ready_empty r), rfl⟩

/-- A Target Table of 32 records. -/
def full : State := { ready with table := List.replicate 32 (some monitor31) }

/-- Each value one outside its range, the ends of each range, and each later refusal. -/
theorem witness_LoadTargetRefusals :
    (holding machine12).LinkReady ∧
      (let bad (a : LoadArgs) := answerOf (.loadTarget (some a)) (holding machine12) = some (.refused .badValue);
        bad ⟨0, 1, 7, none, 0, 0⟩ ∧ bad ⟨251, 1, 7, none, 0, 0⟩ ∧ bad ⟨1, 0, 7, none, 0, 0⟩ ∧ bad ⟨1, 4, 7, none, 0, 0⟩ ∧
          bad ⟨1, 1, 64, none, 0, 0⟩ ∧ bad ⟨1, 2, 0, some ⟨-10000001, 0, 0⟩, 0, 0⟩ ∧
          bad ⟨1, 2, 0, some ⟨0, 10000001, 0⟩, 0, 0⟩ ∧ bad ⟨1, 2, 0, some ⟨0, 0, 10000001⟩, 0, 0⟩) ∧
      (answerOf (.loadTarget (some ⟨12, 2, 64, some ⟨-10000000, 10000000, 0⟩, 0, 0⟩)) (holding machine12) =
          some (.refused .duplicate) ∧ some machine12 ∈ (holding machine12).table) ∧
      (answerOf (.loadTarget (some ⟨250, 1, 7, none, 0, 0⟩)) (holding machine12) = some (.refused .duplicateCode) ∧
        (∀ q : TargetRecord, some q ∈ (holding machine12).table → q.prism ≠ 250)) ∧
      (full.LinkReady ∧ (1 ≤ 1 ∧ 1 ≤ 250 ∧ (1 = 1 ∧ PrismClass.machine = .machine ∧ 63 ≤ 63)) ∧
        (∀ q : TargetRecord, some q ∈ full.table → q.prism ≠ 1) ∧
        (∀ q : TargetRecord, some q ∈ full.table → q.cls = PrismClass.machine → q.blink ≠ some 63) ∧ none ∉ full.table ∧
        answerOf (.loadTarget (some ⟨1, 1, 63, none, 0, 0⟩)) full = some (.refused .tableFull)) := by
  have h : ∀ q : TargetRecord, some q ∈ full.table → q = monitor31 := fun q h => by simpa [full] using h
  refine ⟨⟨rfl, rfl⟩, by decide +kernel, by decide +kernel, ⟨by decide +kernel, ?_⟩, ⟨rfl, rfl⟩, by decide, ?_, ?_,
    by decide +kernel, by decide +kernel⟩
  · intro q h; rw [mem_tableOf h]; decide
  · intro q hq; rw [h q hq]; decide
  · intro q hq; rw [h q hq]; decide

/-- Slot 3 of `holding` carries the record's prism. -/
theorem holding_carries (r : TargetRecord) : (holding r).Carries 3 r r.prism :=
  ⟨rfl, rfl, fun j q hj h => absurd (tableOf_some h).1 (by omega)⟩

/-- Prism ids one outside their range and at its ends; nominal coordinates one outside theirs. -/
theorem witness_EditTargetRewrites :
    (holding machine12).LinkReady ∧
      (let bad (a : EditArgs) := answerOf (.editTarget (some a)) (holding machine12) = some (.refused .badValue);
        bad ⟨0, 500, 0, none⟩ ∧ bad ⟨251, 500, 0, none⟩ ∧ bad ⟨12, 500, 0, some ⟨10000001, 0, 0⟩⟩ ∧
          bad ⟨12, 500, 0, some ⟨0, 0, -10000001⟩⟩) ∧
      (∀ r : TargetRecord, some r ∈ (holding machine12).table → r.prism ≠ 1 ∧ r.prism ≠ 250) ∧
      answerOf (.editTarget (some ⟨250, 500, 0, none⟩)) (holding machine12) = some (.refused .unknownPrism) ∧
      (holding machine12).Carries 3 machine12 12 ∧
      answerOf (.editTarget (some ⟨12, 99, 5001, some ⟨-10000000, 10000000, 0⟩⟩)) (holding machine12) = some (.ok .none) :=
  ⟨⟨rfl, rfl⟩, by decide +kernel, fun r h => by rw [mem_tableOf h]; decide, by decide +kernel, holding_carries machine12,
    by decide +kernel⟩

theorem witness_RetireFreesSlot :
    (holding machine12).LinkReady ∧ (holding machine12).lightConsistent ∧
      answerOf (.retireTarget (some 0)) (holding machine12) = some (.refused .badValue) ∧
      answerOf (.retireTarget (some 251)) (holding machine12) = some (.refused .badValue) ∧
      (∀ r : TargetRecord, some r ∈ (holding machine12).table → r.prism ≠ 1 ∧ r.prism ≠ 250) ∧
      answerOf (.retireTarget (some 250)) (holding machine12) = some (.refused .unknownPrism) ∧
      (holding machine12).Carries 3 machine12 12 ∧ machine12.state ≠ .active := by
  refine ⟨⟨rfl, rfl⟩, ?_, by decide +kernel, by decide +kernel, fun r h => by rw [mem_tableOf h]; decide,
    by decide +kernel, holding_carries machine12, by decide⟩
  unfold State.lightConsistent; decide +kernel

/-- An aim suspended by a hold that stands. -/
def suspendedHeld : State := { suspended with hz := held.hz, vt := held.vt, peers := held.peers }

/-- In the states of an aim, slot 3 carries prism 12. -/
theorem aiming_carries (e : EngineState) (a : Aim) (o : Option OpenObs) :
    (aiming e a o).Carries 3 { machine12 with state := .active } 12 := by
  refine ⟨by rw [aiming_table]; rfl, rfl, fun j q hj h => ?_⟩
  rw [aiming_table] at h
  exact absurd (tableOf_some h).1 (by omega)

/-- A running aim with its observation open, the HZ axis moving. -/
def slewing : State :=
  { aiming .ranging aim12 (some lock63) with hz := { stood 309666 with state := .moving, target := some 500000 } }

theorem witness_RetireDropsSuspendedAim :
    suspendedHeld.LinkReady ∧ suspendedHeld.lightConsistent ∧ suspendedHeld.EngineConsistent ∧
      suspendedHeld.engine.state = .suspended ∧ suspendedHeld.held = true ∧
      suspendedHeld.Carries 3 { machine12 with state := .active } 12 ∧
      (slewing.LinkReady ∧ slewing.engine.state.isRunningAim = true ∧ slewing.engine.openObs = some lock63 ∧
        slewing.Carries 3 { machine12 with state := .active } 12 ∧ slewing.hz.state.inMotion = true ∧
        (after (exec (.retireTarget (some 12)) slewing)).map
            (fun t => (t.engine.state, t.record 3, t.hz.target, t.link.observations.map (·.closing))) =
          some (.waiting, none, some 309666, [.angleOnly])) := by
  refine ⟨⟨rfl, rfl⟩, ?_, ⟨?_, ?_, ?_, ?_, ?_⟩, rfl, rfl, aiming_carries _ _ _, ?_⟩
  · unfold State.lightConsistent; decide +kernel
  · decide +kernel
  · decide +kernel
  · decide +kernel
  · decide +kernel
  · decide +kernel
  · exact ⟨by unfold State.LinkReady; decide +kernel, by decide +kernel, by decide +kernel, aiming_carries _ _ _,
      by decide +kernel, by decide +kernel⟩

/-- First sector 63, last 0; the held limits one apart, and equal. -/
theorem witness_SetSectorWritesRange :
    ready.LinkReady ∧ ready.lightConsistent ∧ modeOfCode 2 = some SectorMode.masked ∧ modeOfCode 3 = none ∧
      max 200000 (min 1800000 1799999) < max 200000 (min 1800000 1900000) ∧
      max 200000 (min 1800000 1900000) ≤ max 200000 (min 1800000 1800000) ∧ ready.sectors.length = 64 := by
  unfold State.LinkReady State.lightConsistent; decide +kernel

/-- `holding machine12` with sector 6, where prism 12 lies, MASKED. -/
def masked : State := { holding machine12 with sectors := State.reset.sectors.set 6 ⟨.masked, 200000, 1800000, 0⟩ }

/-- `holding machine12`, running. -/
def running : State := { holding machine12 with engine := { Engine.reset with state := .waiting } }

/-- The candidate that prism 12 makes. -/
def candidate12 : Candidate := ⟨3, machine12, direction, 6, 0⟩

theorem witness_CandidateOrder : candidate12.record.due ≤ 1000 := by decide +kernel

/-- `running` with prism 12 forced, on the record given. -/
def forcing (r : TargetRecord) (sectors : List Sector) : State :=
  { running with forced := some 12, table := tableOf r, sectors := sectors }

/-- The forced step of R63: the name unknown, deferred, just returned from DEFERRED, masked, and passing though not due. -/
theorem witness_SelectionForced :
    (∀ r : TargetRecord, some r ∈ running.table → r.prism ≠ 250) ∧
      (∀ r : TargetRecord, r.prism = 12 → (forcing r State.reset.sectors).Carries 3 r 12) ∧
      (let r := { machine12 with state := .deferred, deferUntil := some 1001 };
        (after (.next (forcing r State.reset.sectors).select)).map (fun t => (t.engine.state, t.forced)) =
          some (.waiting, some 12)) ∧
      (let r := { machine12 with state := .deferred, deferUntil := some 1000 };
        r.seenAs 1000 { machine12 with deferArmed := false } ∧
          (forcing r State.reset.sectors).filter { machine12 with deferArmed := false } = .passes direction) ∧
      ((forcing machine12 masked.sectors).filter machine12 = .fails .masked ∧
        (forcing machine12 masked.sectors).select.link.events.forcedDropped = true) ∧
      (let s := forcing { machine12 with due := 9000 } State.reset.sectors;
        s.filter { machine12 with due := 9000 } = .passes direction ∧ s.select.engine.state = .slewing ∧
          s.select.forced = none) := by
  refine ⟨fun r h => by rw [mem_tableOf h]; decide, fun r h => ?_, by decide +kernel, ⟨.inr ⟨rfl, ?_, rfl⟩, ?_⟩, ?_, ?_⟩
  · exact ⟨rfl, h, fun j q hj hq => absurd (tableOf_some hq).1 (by omega)⟩
  · rintro t ⟨⟩; decide
  all_goals decide +kernel

theorem witness_SelectionHandsOverFirst :
    ready.engine.state ≠ .waiting ∧ (running.engine.state = .waiting ∧ running.held = false ∧ running.forced = none) ∧
      running.IsCandidate candidate12 ∧ (∀ c, ¬ ({ running with table := ready.table } : State).IsCandidate c) ∧
      running.FilterPassed machine12 direction := by
  refine ⟨by decide, by decide +kernel, ⟨⟨machine12, rfl, .inl ⟨rfl, rfl⟩⟩, by decide +kernel, ?_, ?_, ?_⟩, ?_,
    (State.filter_passes_iff _ _ _).mp (by decide +kernel)⟩
  · decide +kernel
  · decide +kernel
  · decide +kernel
  · rintro c ⟨⟨r, h, -⟩, -⟩
    exact ready_empty r (List.mem_of_getElem? h)

theorem witness_RunEntersWaiting :
    (ready.LinkReady ∧ ready.engine.state = .stopped ∧ ready.setup.isSome = true ∧ ready.hz.state = .ready ∧
        ready.vt.state = .ready ∧ ready.light.window = none ∧ ready.light.emitter = .off) ∧
      (held.LinkReady ∧ held.engine.state = .stopped ∧ held.hz.state ≠ .ready) ∧ running.engine.state ≠ .stopped := by
  unfold State.LinkReady; decide +kernel

theorem witness_PauseStopsWaiting :
    (ready.LinkReady ∧ ready.lightConsistent ∧ ready.light.window = none) ∧
      (running.LinkReady ∧ running.lightConsistent ∧ running.light.window = none ∧ running.engine.state = .waiting) := by
  unfold State.LinkReady State.lightConsistent; decide +kernel

theorem witness_PauseAbortsAim :
    (slewing.LinkReady ∧ slewing.engine.state.isRunningAim = true ∧ slewing.engine.aim = some aim12 ∧
      slewing.table[3]? = some (some { machine12 with state := .active }) ∧ slewing.hz.state.inMotion = true ∧
        slewing.vt.state.inMotion = false ∧ slewing.engine.openObs = some lock63 ∧
        (after (exec (.pause true) slewing)).map (fun t =>
            (t.engine.state, t.link.slot, t.link.observations.map (·.closing), t.hz.target)) =
          some (.stopped, some ⟨10, .ok .none⟩, [.angleOnly], some 309666) ∧
        (after (exec (.pause true) slewing)).bind (fun t => (t.record 3).map fun r => (r.fixA.map (·.quality), r.state)) =
          some (some 6, .idle)) ∧
      (suspended.LinkReady ∧ suspended.EngineConsistent ∧ suspended.engine.state = .suspended ∧
        suspended.table[3]? = some (some { machine12 with state := .active }) ∧ machine12.deferUntil = none ∧
        (after (exec (.pause true) { suspended with
            table := tableOf { machine12 with state := .active, deferUntil := some 1001 } })).map
          (fun t => (t.engine.state, (t.record 3).map (·.state))) = some (.stopped, some .deferred)) := by
  refine ⟨?_, ?_, ⟨?_, ?_, ?_, ?_, ?_⟩, ?_⟩
  case refine_1 =>
    refine ⟨⟨rfl, by decide +kernel⟩, by decide +kernel, rfl, by decide +kernel, rfl, rfl, rfl, by decide +kernel, by decide +kernel⟩
  case refine_2 => unfold State.LinkReady; decide +kernel
  all_goals decide +kernel

theorem witness_AimNowForces :
    ready.LinkReady ∧ (∀ r : TargetRecord, some r ∈ ready.table → r.prism ≠ 250) ∧
      (∀ (j : Nat) (q : TargetRecord), j < 3 → (holding machine12).table[j]? = some (some q) → q.prism ≠ 12) ∧
      ({ holding machine12 with setup := none } : State).setup = none ∧ masked.filter machine12 = .fails .masked ∧
      (holding machine12).filter machine12 = .passes direction :=
  ⟨ready_linkReady.1, fun r h => absurd h (ready_empty r), fun j q hj h => absurd (tableOf_some h).1 (by omega), rfl,
    by decide +kernel, by decide +kernel⟩

theorem witness_RangeRefused :
    let s := aiming .ranging aim12 (some lock63);
    s.LinkReady ∧ s.lightConsistent ∧ s.engine.openObs = some lock63 ∧ lock63.seq ≠ 64 ∧
      ready.LinkReady ∧ ready.lightConsistent := by
  unfold State.LinkReady State.lightConsistent; decide +kernel

theorem witness_RangeClosesObservation :
    (let s := aiming .tracking aim12 (some lock63);
      s.LinkReady ∧ s.engine.openObs = some lock63 ∧ s.engine.aim = some aim12 ∧ s.engine.state = .tracking ∧
        s.Carries 3 { machine12 with state := .active } 12 ∧ (⟨northEast, 500, .own, 15⟩ : Fix).time < lock63.lockTime) ∧
      (let s := aiming .ranging { aim12 with sector := some 6, lastLock := some 950 } (some lock63);
      s.LinkReady ∧ s.engine.openObs = some lock63 ∧ s.engine.state = .ranging ∧ s.held = false ∧
        (after (exec (.range (some ⟨63, 50249⟩)) s)).map
            (fun t => (t.engine.state, (t.record 3).map fun r => (r.lastOutcome, r.due, r.state))) =
          some (.waiting, some (some .observed, 1450, .idle)) ∧
        (after (exec (.range (some ⟨63, 50249⟩)) s)).map
            (fun t => (t.record 3).map fun r => (r.fixA.map (·.time), r.fixB.map (·.time), r.velocity.isSome)) =
          some (some (some 950, some 500, true))) := by
  refine ⟨⟨by unfold State.LinkReady; decide +kernel, by decide +kernel, by decide +kernel, by decide +kernel,
    aiming_carries _ _ _, by decide +kernel⟩, by unfold State.LinkReady; decide +kernel⟩

/-- A record at 3 misses, and one at 2, whose aim ends. -/
theorem witness_AimEndWritesRecord :
    (let s := { aiming .searching { aim12 with sector := some 6 } none with
      table := tableOf { machine12 with state := .active, misses := 3, deferUntil := some 1001 } };
    s.engine.openObs = none ∧ s.engine.aim = some { aim12 with sector := some 6 } ∧
      s.table[3]? = some (some { machine12 with state := .active, misses := 3, deferUntil := some 1001 }) ∧
        s.clock < 1001 ∧ 6 < s.sectors.length ∧ (2 : Nat) < 3 ∧ 3 ≤ 3) ∧
      (let s := aiming .tracking aim12 (some lock63);
        s.engine.openObs = some lock63 ∧ (AimOutcome.yielded = .yielded ↔ (some 1001).isSome = true) ∧
          (AimOutcome.missed = .yielded ↔ (none : Option Nat).isSome = true) ∧
          ((s.finishAim .yielded (some 1001)).record 3).map (fun r => (r.state, r.lastOutcome, r.fixA.map (·.quality))) =
            some (.deferred, some .yielded, some 6)) := by decide +kernel

theorem witness_SiteHoldRequestsBreak : ready.LinkReady := ready_linkReady.1

/-- `ready` with the HZ drive in FAULT. -/
def faulted (code : FaultCode) (asserted : Bool) : State :=
  { ready with hz := { (stood 309666).takeFault code with bridgeFault := asserted } }

theorem witness_ClearFaultRestoresDrives :
    (ready.LinkReady ∧ ready.lightConsistent ∧ ready.hz.state ≠ .fault ∧ ready.vt.state ≠ .fault) ∧
      (let s := faulted .stall false;
        s.LinkReady ∧ s.lightConsistent ∧ s.engine.state = .stopped ∧ s.hz.state = .fault ∧ s.hz.bridgeFault = false ∧
          s.hz.indexed = true ∧ s.hz.fault ≠ some .indexMissing) ∧
      (let s := faulted .indexMissing true;
        s.LinkReady ∧ s.lightConsistent ∧ s.engine.state = .stopped ∧ s.hz.state = .fault ∧ s.hz.bridgeFault = true) := by
  unfold State.LinkReady State.lightConsistent; decide +kernel

/-- A due time, and a defer-until, at the clock and one after it. -/
theorem witness_RecordTimersSelect :
    (holding machine12).table[3]? = some (some machine12) ∧ machine12.dueArmed = true ∧
      ({ machine12 with due := 1000 } : TargetRecord).due ≤ ready.clock ∧
      ready.clock < ({ machine12 with due := 1001 } : TargetRecord).due ∧
      ({ machine12 with deferUntil := some 1000, deferArmed := true } : TargetRecord).deferUntil = some ready.clock ∧
      ready.table[3]? = some none := by decide +kernel

/-- A peer that named prism 12. -/
def peer9 (heard : Nat) : Peer := ⟨9, heard, some .running, none, some ⟨12, 48100, 1000⟩⟩

theorem witness_ScheduledTimersRun :
    ({ ready with decayDue := 1000 } : State).decayDue ≤ ready.clock ∧ ready.clock < ready.decayDue ∧
      (let s := { ready with clock := 15000, peers := { ready.peers with table := ready.peers.table.set 2 (some (peer9 0)) } };
        s.peers.table[2]? = some (some (peer9 0)) ∧ (peer9 0).lastHeard + 15000 ≤ s.clock ∧
          s.clock < (peer9 1).lastHeard + 15000 ∧ 1000 ≤ s.clock) ∧
      (let s := { ready with peers := { ready.peers with presenceDeadline := some 1000 } };
        s.peers.presenceDeadline = some s.clock ∧ s.config.isSome = true ∧ s.line.listenOnly = false) := by decide +kernel

/-- A slew whose HZ report comes second: 50 cu from the target. -/
def arriving (e : EngineState) (a : Aim) : State :=
  { aiming e a none with hz := { stood 309666 with state := .moving, target := some 309716 } }

/-- The engine's state, the HZ drive's state and the VT target after the HZ report of `s`. -/
def arrived (s : State) : Option (EngineState × Bool × AxisState × Option Int) :=
  (after (exec (.arrived .hz 0) s)).map fun t => (t.engine.state, t.engine.dwelling, t.hz.state, t.vt.target)

/-- One clause each: ahead of the target; outside a slew; the report of a superseded move; the first report; the second in
SEARCHING; a re-slew, and the one after two; without a nominal position; and the report given at once by R113. -/
theorem witness_ArrivalAdvancesEngine :
    (let s := arriving .slewing { aim12 with awaitHz := true };
      let d := (s.readAxis .hz 0).drive .hz;
      (d.state = .moving ∧ d.distanceLeft .hz ≤ 50 ∧ 50 < ((s.readAxis .hz (-1)).drive .hz).distanceLeft .hz) ∧
        s.sourceDirection .predicted { machine12 with state := .active } = some direction ∧
        beyondHalfWidth (machine12.widthAt s.clock direction.sd) direction.hz direction.v 309666 936549 = false ∧
        beyondHalfWidth (machine12.widthAt s.clock direction.sd) direction.hz direction.v 409666 936549 = true ∧
        s.sourceDirection .nominal { machine12 with state := .active } = none) ∧
      arrived (arriving .centring aim12) = some (.centring, false, .ready, some 936549) ∧
      arrived (arriving .slewing { aim12 with awaitVt := true }) = some (.slewing, false, .ready, some 936549) ∧
      arrived (arriving .slewing { aim12 with awaitHz := true, awaitVt := true }) =
        some (.slewing, false, .ready, some 936549) ∧
      arrived (arriving .searching { aim12 with awaitHz := true }) = some (.searching, true, .ready, some 936549) ∧
      arrived (arriving .slewing { aim12 with awaitHz := true, reslews := 1, centre := ⟨409666, 936649⟩ }) =
        some (.slewing, false, .ready, some 936549) ∧
      arrived (arriving .slewing { aim12 with awaitHz := true, reslews := 2, centre := ⟨409666, 936549⟩ }) =
        some (.acquiring, false, .ready, some 936549) ∧
      arrived (arriving .slewing { aim12 with awaitHz := true, source := .nominal }) =
        some (.acquiring, false, .ready, some 936549) ∧
      (let d := { stood 309666 with reporting := true };
        (({ ready with hz := d }).readAxis .hz 0).drive .hz = d ∧ d.state ≠ .moving ∧
          arrived { aiming .slewing { aim12 with awaitHz := true } none with hz := d } =
            some (.acquiring, false, .ready, some 936549)) := by
  refine ⟨?_, ?_, ?_, ?_, ?_, ?_, ?_, ?_, ?_, ?_, ?_⟩ <;> decide +kernel

theorem witness_DriveReachesPosition :
    (let s := { ready with hz := { stood 309666 with state := .fine, target := some 309716 } };
      ((s.readAxis .hz 0).drive .hz).state = .fine ∧ ((s.readAxis .hz 0).drive .hz).distanceLeft .hz ≤ 50 ∧
        50 < ((s.readAxis .hz (-1)).drive .hz).distanceLeft .hz) ∧
      (let s := { ready with vt := { Drive.reset with state := .indexing, known := true, travel := 549999 } };
        (s.readAxis .vt 1).vt.state = .indexing ∧ (s.readAxis .vt 1).vt.reversed = false ∧
          550000 ≤ (s.readAxis .vt 1).vt.travel ∧ (s.readAxis .vt 0).vt.travel < 550000) ∧
      (ready.hz.indexed = true ∧ ready.hz.midpoint = some 0 ∧ ready.hz.offset = some 309666) := by decide +kernel

theorem witness_SettleEndsReady :
    (let s := { ready with hz := { stood 309666 with state := .settling, settleEnd := some 1000, pendingTarget := some 309716 } };
    (s.readAxis .hz 0).hz.state = .settling ∧ (s.readAxis .hz 0).hz.settleEnd = some s.clock ∧
      s.engine.state ≠ .suspended ∧ (s.readAxis .hz 0).hz.distance .hz 309716 ≤ 50 ∧ s.vt.state = .ready ∧
        s.axesReadyRaised = false ∧ (ready.readAxis .hz 0).hz.state ≠ .settling) ∧
      (let s := { suspended with hz := { stood 309666 with state := .settling, settleEnd := some 1000 } };
        s.engine.state = .suspended ∧ (s.readAxis .hz 0).hz.settleEnd = some s.clock ∧
          (after (exec (.settleEnd .hz 0) s)).map (fun t => t.engine.state) = some .searching) := by decide +kernel

/-- VT positions at rest on its hard limit and one below it. -/
theorem witness_IndexEdgeSetsIndex :
    let s := { ready with vt := { Drive.reset with
        state := .indexing, known := true, offset := some 1000000, capture := some 20640 } };
    (s.readAxis .vt 20000).vt.state = .indexing ∧ (s.readAxis .vt 20000).vt.capture = some 20640 ∧
      (s.readAxis .vt 20000).vt.offset = some 1000000 ∧ s.engine.state = .stopped ∧ s.light.emitter = .off ∧
        150000 ≤ (-829680 : Int) - (20640 + 20000) / 2 + 1000000 ∧
          (-829681 : Int) - (20640 + 20000) / 2 + 1000000 < 150000 ∧ ready.hz.state ≠ .indexing ∧
            ready.hz.capture = none := by decide +kernel

/-- The ends of each range; an interval one millisecond short; VT one outside its hard limit, told already and in FAULT; and
what a fault makes of a running aim and of a suspended one. -/
theorem witness_DriveFaultsStopEngine :
    ready.EngineConsistent ∧
      (let d := { Drive.reset with
          state := .indexing, known := true, travel := 4399999, interval := some ⟨800, 4399900⟩ };
        let s := { ready with hz := d };
        4400000 ≤ ((s.readAxis .hz 1).drive .hz).travel ∧ ((s.readAxis .hz 0).drive .hz).travel < 4400000 ∧
          ((s.readAxis .hz 1).drive .hz).interval = some ⟨800, 4399900⟩ ∧
          (800 : Nat) + 200 ≤ s.clock ∧ s.clock < 801 + 200 ∧ ((s.readAxis .hz 0).drive .hz).travel < 4399900 + 100 ∧
          4399900 + 100 ≤ ((s.readAxis .hz 1).drive .hz).travel) ∧
      ready.hz.interval = none ∧ (ready.drive .hz).state ≠ .fault ∧ ((faulted .stall false).drive .hz).state = .fault ∧
      ((ready.readAxis .vt (149999 - 936549)).vt.position .vt = some 149999 ∧ ready.vt.outside = false ∧
        (ready.readAxis .vt (150000 - 936549)).vt.position .vt = some 150000 ∧ State.reset.vt.position .vt = none ∧
        (let s := { ready with vt := { stood 936549 with outside := true } };
          (s.readAxis .vt (149999 - 936549)).vt.outside = true) ∧
        (let s := { ready with vt := (stood 936549).takeFault .stall };
          (s.readAxis .vt (149999 - 936549)).vt.state = .fault ∧
            (after (exec (.vtLimitCrossing (149999 - 936549)) s)).map (fun t => (t.vt.outside, t.vt.fault)) =
              some (true, some .stall))) ∧
      slewing.engine.state.isRunningAim = true ∧ slewing.engine.openObs = some lock63 ∧
      (after (exec (.bridgeFaultInput .vt true) slewing)).map (fun t =>
          (t.engine.state, t.link.observations.map (·.closing), t.hz.state, t.vt.fault)) =
        some (.stopped, [.angleOnly], .ready, some .overcurrent) ∧
      (after (exec (.bridgeFaultInput .vt true) slewing)).bind (fun t => (t.record 3).map fun r =>
          (r.fixA.map (·.quality), r.lastOutcome)) = some (some 6, some .faulted) ∧
      suspended.engine.state = .suspended ∧
      (after (exec (.bridgeFaultInput .vt true) suspended)).bind (fun t => (t.record 3).map fun r =>
          (t.engine.state, t.engine.suspension, r.lastOutcome)) = some (.stopped, none, some .faulted) := by
  refine ⟨⟨?_, ?_, ?_, ?_, ?_⟩, ?_, ?_, ?_, ?_, ⟨?_, ?_, ?_, ?_, ?_, ?_, ?_⟩, ?_, ?_, ?_, ?_, ?_, ?_⟩ <;> decide +kernel

/-- The part with the aim and the evidence given in the window that ends, dwelling where it searches. -/
def window (e : EngineState) (a : Aim) (pulses : List Pulse) (codes : List CodeSeen) : State :=
  { aiming e a none with
    engine := ⟨e, some a, none, none, 64, true⟩
    light := ⟨some ⟨36, 140⟩, .on 0, some ⟨1000 * 72000 - 108288, pulses, codes⟩, none⟩ }

/-- Eight pairs of the pattern of gap `g`, on the spot, from the offset `at_` of each period. -/
def pairs (g at_ : Int) : List Pulse :=
  (List.range 8).flatMap fun k => [⟨188 * k + at_, 188 * k + at_ + 6, 3, 20⟩, ⟨188 * k + at_ + 6 + g, 188 * k + at_ + 12 + g, 3, 20⟩]

/-- The window's end takes the engine to the state given, at the attempt, the index and the dwell count given, if in an
aim. -/
def endsIn (s : State) (e : EngineState) (counts : List Nat) : Bool :=
  match exec (.windowEnd 0 0) s with
  | .next t => decide (t.engine.state = e) && t.engine.aim.toList.flatMap (fun a => [a.attempt, a.index, a.dwellCount]) == counts
  | _ => false

/-- R81 to R83: windows counted in ACQUIRING and SEARCHING at the ends of each count, light found, a wrong code. -/
theorem witness_WindowTaken_search :
    endsIn (window .acquiring { aim12 with dwellCount := 2 } [] []) .acquiring [1, 0, 3] = true ∧
      endsIn (window .acquiring { aim12 with dwellCount := 3, rings := 1 } [] []) .searching [1, 1, 0] = true ∧
      endsIn (window .acquiring { aim12 with dwellCount := 3, rings := 0, planStep := 4 } [] []) .waiting [] = true ∧
      endsIn (window .searching { aim12 with dwellCount := 0, rings := 1 } [] []) .searching [1, 0, 1] = true ∧
      endsIn (window .searching { aim12 with dwellCount := 1, rings := 1, index := 7 } [] []) .searching [1, 8, 0] = true ∧
      endsIn (window .searching { aim12 with dwellCount := 1, rings := 1, index := 8 } [] []) .searching [2, 0, 0] = true ∧
      endsIn (window .searching aim12 (pairs 36 0) [⟨7, 1503⟩]) .centring [1, 0, 0] = true ∧
      endsIn (window .searching aim12 (pairs 36 0) [⟨8, 1503⟩]) .searching [2, 0, 0] = true := by decide +kernel

/-- R85, R86, R90: other windows in CENTRING and TRACKING at the ends of each count; station 3's light yields. A lost track is
due at once, and is handed over again (R40, R57). -/
theorem witness_WindowTaken_lost :
    (windowReport 5 (pairs 36 0 ++ pairs 28 80) [] 0 0 0).cls = .mixed ∧
      (windowReport 5 (pairs 36 0 ++ pairs 28 80) [] 0 0 0).dominant = some 3 ∧
      endsIn (window .centring { aim12 with nonOwn := 1 } [] []) .centring [1, 0, 0] = true ∧
      endsIn (window .centring { aim12 with nonOwn := 2 } [] []) .searching [2, 0, 0] = true ∧
      endsIn (window .centring { aim12 with mixed := 4 } (pairs 36 0 ++ pairs 28 80) []) .centring [1, 0, 0] = true ∧
      endsIn (window .centring { aim12 with mixed := 5 } (pairs 36 0 ++ pairs 28 80) []) .waiting [] = true ∧
      endsIn (window .centring { aim12 with mixed := 18 } (pairs 36 0 ++ pairs 44 90) []) .centring [1, 0, 0] = true ∧
      endsIn (window .centring { aim12 with mixed := 19 } (pairs 36 0 ++ pairs 44 90) []) .searching [2, 0, 0] = true ∧
      endsIn (window .ranging aim12 (pairs 36 0) []) .ranging [1, 0, 0] = true ∧
      endsIn (window .tracking aim12 (pairs 36 0) []) .tracking [1, 0, 0] = true ∧
      endsIn (window .tracking { aim12 with mixed := 5 } (pairs 36 0 ++ pairs 28 80) []) .waiting [] = true ∧
      endsIn (window .tracking { aim12 with nonOwn := 8 } [] []) .tracking [1, 0, 0] = true ∧
      endsIn (window .tracking { aim12 with nonOwn := 9, lastLock := some 950 } [] []) .slewing [1, 0, 0] = true := by
  decide +kernel

theorem witness_WindowEndReports :
    (let s := aiming .ranging aim12 (some lock63);
      s.light.window = some ⟨1000 * 72000 - 108288, [], []⟩ ∧ 1000 * 72000 - 108288 + 108288 ≤ s.instant ∧
        (s.readBoth 0 0).hz.position .hz = some 309666 ∧ (s.readBoth 0 0).vt.position .vt = some 936549 ∧
          s.engine.state = .ranging) ∧
      ready.light.window = none ∧ (State.reset.readBoth 0 0).hz.position .hz = none := by decide +kernel

/-- Eight own pairs of station 5, on each mark 3 cu off in Hz and 20 in V. -/
def ownPulses5 : List Pulse :=
  (List.range 8).flatMap fun k => [⟨188 * k, 188 * k + 6, 3, 20⟩, ⟨188 * k + 42, 188 * k + 48, 3, 20⟩]

/-- Centring, two windows in tolerance behind, the third one in progress. -/
def centring : State :=
  { aiming .centring { aim12 with inTolerance := 2 } none with
    light := ⟨some ⟨36, 140⟩, .on 0, some ⟨1000 * 72000 - 108288, ownPulses5, []⟩, none⟩ }

theorem witness_CentringLocksOnOwnLight :
    let m := windowReport centring.ownStation ownPulses5 [] 309666 936549 centring.clock;
    m.cls = .own ∧ m.offsets = some (3, 20) ∧ m.code = none ∧ centring.engine.state = .centring ∧
      (centring.readBoth 0 0).hz.position .hz = some 309666 ∧ (centring.readBoth 0 0).vt.position .vt = some 936549 ∧
      centring.table[3]? = some (some { machine12 with state := .active }) ∧
      (after (exec (.windowEnd 0 0) centring)).map (fun t => (t.engine.state, t.engine.openObs.map (·.seq), t.vt.target,
          t.engine.aim.bind (·.latestOwn))) = some (.tracking, some 64, some 936569, some ⟨309669, 936569⟩) := by decide +kernel

theorem witness_AimTimersEndPhases :
    (let a := { aim12 with nextSample := some 1000, dwellDeadline := some 1000, ownSince := true, latestOwn := some ⟨1, 2⟩ };
      let s := aiming .tracking a (some lock63);
      s.engine.aim = some a ∧ s.lightConsistent ∧ s.light.window.isSome = s.engine.state.makesWindows ∧
        s.engine.state = .tracking ∧ s.clock = 1000 ∧ s.link.observations.length < 16) ∧
      (let a := { aim12 with waitDeadline := some 1000 };
      let s := aiming .ranging a (some lock63);
      s.engine.aim = some a ∧ s.lightConsistent ∧ s.light.window.isSome = s.engine.state.makesWindows ∧
        s.engine.state = .ranging) ∧
      (suspended.engine.state = .suspended ∧ suspended.lightConsistent ∧
        suspended.light.window.isSome = suspended.engine.state.makesWindows) := by
  unfold State.lightConsistent; decide +kernel

/-- The clock at the end of the 10,000 ms, and prism 12 in a MASKED sector. -/
theorem witness_ResumptionRestoresAim :
    (let s := { suspended with clock := 10500 };
      s.engine.state = .suspended ∧ s.held = false ∧ s.hz.state = .ready ∧ s.vt.state = .ready ∧
        s.engine.suspension = some suspension ∧ s.table[3]? = some (some { machine12 with state := .active }) ∧
        s.clock ≤ suspension.time + 10000 ∧ s.filter { machine12 with state := .active } = .passes direction ∧
        suspension.state = .searching ∧ (s.tryResume.engine.state, s.tryResume.hz.target, s.tryResume.vt.target) =
          (.searching, some 321666, some 912549)) ∧
      (let u := { suspension with state := .centring };
        let s := { suspended with engine := { suspended.engine with suspension := some u } };
        u.state ≠ .searching ∧ s.clock ≤ u.time + 10000 ∧ s.filter { machine12 with state := .active } = .passes direction ∧
          (s.tryResume.engine.state, s.tryResume.hz.target, s.tryResume.vt.target) =
            (.slewing, some 309666, some 936549)) ∧
      ({ suspended with sectors := masked.sectors } : State).filter machine12 = .fails .masked ∧
      suspended.filter { machine12 with fixA := none } = .fails .noPrediction := by decide +kernel

/-- First characters of group 2 of kinds 1, 3, 0 and 4, and of group 3. -/
theorem witness_CharactersAssembleFrames :
    (ready.config = some ⟨5, 2⟩ ∧ (∀ out, ready.line.transmitter ≠ .sending out) ∧ ready.line.receiver ≠ .break) ∧
      ((33 / 16 = 2 ∧ 1 ≤ 33 % 16) ∧ (35 / 16 = 2 ∧ 35 % 16 ≤ 3) ∧ 32 % 16 = 0 ∧ 3 < 36 % 16 ∧ 49 / 16 ≠ 2) ∧
      ({ ready with line := { ready.line with receiver := .receiving, assembler := List.replicate 24 0 } } : State).line.receiver =
        .receiving ∧ 24 ≤ (List.replicate 24 (0 : Byte)).length ∧ (List.replicate 23 (0 : Byte)).length < 24 :=
  ⟨⟨rfl, (fun _ h => by cases h), by decide +kernel⟩, by decide +kernel⟩

/-- Station 5's gap of 8 character times, 55,000 fine units, complete and one unit short. -/
theorem witness_SendingRunsOnEcho :
    (let s := { ready with line := { ready.line with
        transmitter := .waitingGap, queue := [.intent 12 48100 3000], idleFrom := some (72000000 - 55000) } };
      s.config = some ⟨5, 2⟩ ∧ s.line.receiver ≠ .break ∧
        (3 + 5 + if s.line.collision then 20 else 0) * 6875 ≤ s.instant - (72000000 - 55000) ∧
        s.instant - (72000000 - 54999) < (3 + 5 + if s.line.collision then 20 else 0) * 6875) ∧
      (let out : Sending := ⟨frameChars ⟨5, 2⟩ 1000 (.intent 12 48100 3000), 9, 72000000 - 12 * 6875⟩;
        out.chars[out.echoed]? ≠ none ∧ out.chars.length = out.echoed + 1 ∧
          out.begun + (out.echoed + 3) * 6875 ≤ ready.instant) ∧
      (let s := { ready with line := { ready.line with receiver := .break, transmitter := .sendingBreak 72000000 } };
        s.line.transmitter = .sendingBreak s.instant ∧ s.line.receiver = .break) ∧
      (let s := { ready with line := { ready.line with receiver := .receiving, transmitter := .sendingBreak 72023126, idleFrom := none } };
        s.pending = [] ∧ s.fine < finePerMs ∧ s.outstanding = [] ∧ s.line.receiver ≠ .break) := by decide +kernel

/-- The part's own break with so many fine units of its 48 bit times left. -/
def breaking (left : Nat) (r : ReceiverState) : State :=
  { ready with line := { ready.line with receiver := r, transmitter := .sendingBreak (72000000 + left), idleFrom := none } }

/-- R149, R157: the part's own break is heard at its own receiver: a framing error after 11 bit times, a break after 24;
one bit time earlier neither; and nothing ends it before its release. -/
theorem test_own_break_heard :
    ((breaking 23125 .receiving).ownFramingError = true ∧ (breaking 23750 .receiving).ownFramingError = false ∧
        (breaking 15000 .muted).ownBreakHeard = true ∧ (breaking 15625 .muted).ownBreakHeard = false) ∧
      ((breaking 15000 .idle).outstanding = [.breakBegin] ∧ (breaking 15000 .break).outstanding = [] ∧
        (breaking 23126 .receiving).outstanding = [] ∧ (breaking 0 .break).outstanding = [.breakRelease]) ∧
      ((after (exec .breakEnd (breaking 1 .break))) = some (breaking 1 .break) ∧
        (after (exec .breakEnd (breaking 0 .break))).map (fun t => (t.line.receiver, t.line.idleFrom, t.peers.holdDeadline)) =
          some (.idle, some 72000000, some 4000)) := by decide +kernel

/-- The part sending its INTENT, all but the last echo heard, its last stop bit ended so many character times ago. -/
def sending (ago : Nat) : State :=
  { ready with line := { ready.line with
      transmitter := .sending ⟨frameChars ⟨5, 2⟩ 1000 (.intent 12 48100 3000), 9, 72000000 - (10 + ago) * 6875⟩
      idleFrom := some (72000000 - ago * 6875) } }

/-- R154, R156: with the last echo missing the line has lain at mark for 2 character times at the timeout, and for 1 at a
RESET 1 character time after the stop bit; a start bit of another station restarts the count, one within the part's own
frame finds it at 0. -/
theorem test_idle_count_runs_on :
    ((after (exec .echoTimeout (sending 2))).map (fun t => (t.line.transmitter, t.line.collision, t.idleTime)) =
        some (.idle, true, 13750) ∧
      (after (exec .echoTimeout (sending 1))) = some (sending 1) ∧
      (after (exec (.reset true) (sending 1))).map (fun t => (t.line.transmitter, t.idleTime)) = some (.idle, 6875)) ∧
    ((after (exec .startBit (sending 1))).map (·.line.idleFrom) = some none ∧
      (let s := { sending 0 with fine := 0, clock := 999 }; after (exec .startBit s) = some s ∧ s.idleTime = 0) ∧
      (let s := sending 0; (after (exec .breakEnd { s with line := { s.line with receiver := .break } })).map
        (fun t => (t.line.receiver, t.line.idleFrom)) = some (.idle, some 72000000))) := by
  decide +kernel

/-- The INTENT of station 9 at station 5 (R148, R166), its last character 2 character times ago. -/
def received (r : TargetRecord) : State :=
  { holding r with line := { ready.line with
      receiver := .receiving
      assembler := frameChars ⟨9, 2⟩ 0 (.intent 12 48100 3000)
      idleFrom := some (72000000 - 13750) } }

theorem witness_FrameEndHandsOn :
    (let s := received machine12;
      s.config = some ⟨5, 2⟩ ∧ s.lightConsistent ∧ s.line.receiver = .receiving ∧
        13750 ≤ s.instant - (72000000 - 13750) ∧ validate ⟨5, 2⟩ s.line.assembler = .valid 9 (.intent 12 48100 3000) ∧
        s.peers.table.length = 8 ∧ s.ownDistance machine12 = some 50249 ∧
        (after (exec .frameEnd s)).bind (fun t => (t.record 3).map fun r => (r.state, r.deferUntil)) =
          some (.deferred, some 4000)) ∧
      validate ⟨5, 2⟩ [] = .discarded ∧
      validate ⟨5, 2⟩ (frameChars ⟨5, 2⟩ 0 (.presence .running none)) = .clash ∧
      validate ⟨5, 2⟩ (frameChars ⟨15, 2⟩ 0 (.presence .held (some northEast))) =
        .valid 15 (.presence .held (some northEast)) ∧
      validate ⟨5, 2⟩ (frameChars ⟨1, 2⟩ 1000 (.sighting 12 northEast 900 9)) = .valid 1 (.sighting 12 northEast 9 100) := by
  unfold State.lightConsistent; decide +kernel

/-- R43, R96: the same INTENT for a record that is DEFERRED to a later time, and for the aim in progress. -/
theorem witness_FrameEndDefers :
    (let r := { machine12 with state := .deferred, deferUntil := some 5000 };
      (received r).ownDistance r = some 50249 ∧
        (after (exec .frameEnd (received r))).bind (fun t => (t.record 3).map fun r => (r.state, r.deferUntil)) =
          some (.deferred, some 5000)) ∧
      (let s := { aiming .slewing aim12 none with line := (received machine12).line };
        s.lightConsistent ∧ s.engine.state.isRunningAim = true ∧
          (after (exec .frameEnd s)).bind (fun t => (t.record 3).map fun r => (t.engine.state, r.state, r.lastOutcome)) =
            some (.waiting, .deferred, some .yielded)) := by
  unfold State.lightConsistent; decide +kernel

/-- A part whose receiver is in BREAK, HOLD_IN released. -/
def inBreak : State := { ready with line := { ready.line with receiver := .break, idleFrom := none } }

/-- A running aim with its observation open under a break; HOLD_IN asserted with the repeat deadline reached, one
millisecond ahead, and a break being sent; the receiver in BREAK. -/
theorem witness_HoldStartsAtSources :
    (let s := aiming .ranging aim12 (some lock63);
      s.lightConsistent ∧ s.EngineConsistent ∧ s.line.receiver ≠ .break ∧ s.held = false ∧ s.peers.holdIn = false ∧
        s.engine.state.isRunningAim = true ∧ s.engine.aim = some aim12 ∧ s.engine.openObs = some lock63 ∧
        (after (exec .breakBegin s)).bind (fun t => (t.record 3).map fun r => (t.engine.state,
            t.engine.suspension.map (·.state), t.link.observations.map (·.closing), r.fixA.map (·.quality), t.hz.state)) =
          some (.suspended, some .ranging, [.angleOnly], some 6, .braked) ∧
        (∀ w, s.line.transmitter ≠ .sendingBreak w) ∧
        (after (exec .holdInRising s)).map (fun t => (t.engine.state, t.line.transmitter)) =
          some (.suspended, .sendingBreak (1000 * 72000 + 30000))) ∧
      (held.lightConsistent ∧ held.EngineConsistent ∧ held.peers.holdIn = true ∧
        held.peers.repeatDeadline = some held.clock ∧ held.held = true ∧ 999 < 1000 ∧
        (∀ w, held.line.transmitter ≠ .sendingBreak w) ∧
        (after (exec .repeatDeadlineExpiry held)).map (fun t => (t.line.transmitter, t.peers.repeatDeadline)) =
          some (.sendingBreak (1000 * 72000 + 30000), some 2000) ∧
        (after (exec .repeatDeadlineExpiry { held with line := { held.line with transmitter := .sendingBreak 7 } })).map
            (fun t => (t.line.transmitter, t.peers.repeatDeadline)) = some (.sendingBreak 7, some 2000)) ∧
      (inBreak.lightConsistent ∧ inBreak.EngineConsistent ∧ inBreak.line.receiver = .break ∧
        (after (exec .breakBegin inBreak)) = some inBreak ∧
        (after (exec .breakEnd inBreak)).map (fun t => (t.line.receiver, t.peers.holdDeadline)) =
          some (.idle, some 4000)) := by
  unfold State.lightConsistent
  refine ⟨⟨?_, ⟨?_, ?_, ?_, ?_, ?_⟩, ?_, ?_, ?_, ?_, ?_, ?_, ?_, ?_, ?_⟩,
    ⟨?_, ⟨?_, ?_, ?_, ?_, ?_⟩, ?_, ?_, ?_, ?_, ?_, ?_, ?_⟩, ⟨?_, ⟨?_, ?_, ?_, ?_, ?_⟩, ?_⟩⟩
  case refine_14 => intro w h; cases h
  case refine_26 => intro w h; cases h
  all_goals decide +kernel

theorem witness_HoldEndsWithLastSource :
    (held.lightConsistent ∧ held.stillInHold ∧ held.peers.holdIn = true ∧ held.peers.holdDeadline = none ∧
        held.line.receiver ≠ .break) ∧
      (let s := { held with peers := { PeerExchange.reset with holdDeadline := some 1000 } };
      s.lightConsistent ∧ s.stillInHold ∧ s.peers.holdDeadline = some s.clock ∧ s.peers.holdIn = false) := by
  unfold State.lightConsistent State.stillInHold; decide +kernel

theorem witness_TransferRoundTrip :
    (Instr.setSector (some ⟨62, 1, 2, 100000, 900000⟩)).wellFormed = true ∧
      (encodeTransfer (.setSector (some ⟨62, 1, 2, 100000, 900000⟩))).isSome = true := by decide +kernel

theorem witness_FrameRoundTrip :
    (⟨5, 2⟩ : StationConfig).group = (⟨9, 2⟩ : StationConfig).group ∧
      (⟨5, 2⟩ : StationConfig).station ≠ (⟨9, 2⟩ : StationConfig).station ∧ gridInRange ⟨-10000000, 10000000, 0⟩ = true ∧
        2000 ≤ 2000 ∧ 1500000 ≤ 1500000 := by decide +kernel

end Sys2Proof.Tests
end

namespace Sys2Proof.Machine

open Sys2Proof

/-! ### The emitter after a host command -/

/-- The command slot is no condition of R128: a response written leaves a consistent emitter as it is. -/
theorem State.followLight_respond {s : State} (h : s.lightConsistent) (code : Nat) (answer : Answer) :
    (s.respond code answer).followLight = s.respond code answer :=
  State.followLight_eq _ h

/-- STOPPED is no state that calls for light (R128, first row). -/
theorem Engine.wantsLight_stopped {e : Engine} (h : e.state = .stopped) : e.wantsLight = false := by
  simp [Engine.wantsLight, h]

/-- With no light called for, an emitter that follows R128 is OFF. -/
theorem State.emitter_off_of_unlit {s : State} (hl : s.lightConsistent) (hw : s.engine.wantsLight = false) :
    s.light.emitter = .off := by
  have hdark : s.lightAllowed = false := by simp [State.lightAllowed, hw]
  rw [← State.followLight_eq s hl]
  exact State.followLight_dark s hdark

/-- With the engine STOPPED and the emitter OFF, the emitter stays, whatever else of the state a command has written. -/
theorem State.followLight_stopped {s : State} (he : s.engine.state = .stopped) (ho : s.light.emitter = .off) :
    s.followLight = s := by
  rw [State.followLight_unlit (Engine.wantsLight_stopped he), ← ho]

/-! ### POWER_ON_RESET -/

/-- Power-on reset with HOLD_IN released: the reset state, but for the bridge fault pins, the count of free choices and
the commands that still wait. -/
theorem exec_powerOnReset_released (s : State) : exec (.powerOnReset false) s = .next { State.reset with
    hz := { Drive.reset with bridgeFault := s.hz.bridgeFault }
    vt := { Drive.reset with bridgeFault := s.vt.bridgeFault }
    choices := s.choices + 1
    pending := s.pending } := rfl

/-- Every slot of a table without records is FREE. -/
theorem State.record_of_table_replicate {s : State} {n : Nat} (h : s.table = List.replicate n none) (i : Nat) :
    s.record i = none := by
  unfold State.record
  rw [h, List.getElem?_replicate]
  split <;> rfl

/-- Settles O20: the state is that of `exec_powerOnReset_released`, and its outputs are read off the reset blocks. -/
theorem powerOnResetsAll : Obligations.PowerOnResetsAll := fun s =>
  ⟨_, exec_powerOnReset_released s, rfl, rfl, rfl, State.record_of_table_replicate rfl, rfl, rfl, rfl, rfl, rfl, rfl⟩

/-! ### SET_STATION -/

/-- The value test of SET_STATION (R6). -/
theorem stationInRange_iff (a : StationArgs) : stationInRange a = true ↔
    ((-10000000 ≤ a.es ∧ a.es ≤ 10000000) ∧ (-10000000 ≤ a.ns ∧ a.ns ≤ 10000000) ∧
      -10000000 ≤ a.hs ∧ a.hs ≤ 10000000) ∧ a.hi ≤ 3000 ∧ a.o ≤ 3999999 := by
  simp [stationInRange, gridInRange_iff, and_assoc]

/-- A SET_STATION taken with the slot EMPTY and the part configured is answered by its own rule (R180). -/
theorem exec_setStation_ready {s : State} (h : s.LinkReady) (a : StationArgs) : exec (.setStation (some a)) s =
    .next ((setStationRule a s).state.respond 2 (setStationRule a s).answer).followLight := by
  obtain ⟨hslot, hconfig⟩ := h
  change lit (s.takeCommand .setStation (some a) setStationRule) = _
  rw [State.takeCommand_accepted s _ a _ hslot fun _ => hconfig]
  rfl

/-- A SET_STATION its rule refuses writes the answer and nothing else (R180). -/
theorem exec_setStation_refused {s : State} (h : s.LinkReady) (hl : s.lightConsistent) {a : StationArgs} {why : Reason}
    (hr : setStationRule a s = s.refuse why) : exec (.setStation (some a)) s = .next (s.respond 2 (.refused why)) := by
  rw [exec_setStation_ready h, hr]
  exact congrArg _ (State.followLight_respond hl _ _)

/-- SET_STATION needs a STOPPED engine (R6). -/
theorem setStationRule_running {s : State} (h : s.engine.state ≠ .stopped) (a : StationArgs) :
    setStationRule a s = s.refuse .engineRunning := if_pos h

/-- SET_STATION refuses a value out of range (R6). -/
theorem setStationRule_outOfRange {s : State} (h : s.engine.state = .stopped) {a : StationArgs}
    (ha : stationInRange a = false) : setStationRule a s = s.refuse .badValue := by
  simp [setStationRule, h, ha]

/-- SET_STATION accepted (R6, R7). -/
theorem setStationRule_accepted {s : State} (h : s.engine.state = .stopped) {a : StationArgs}
    (ha : stationInRange a = true) : setStationRule a s = ⟨.ok .none, { s with
      setup := some ⟨a.es, a.ns, a.hs, a.hi, a.o⟩
      table := s.table.map (Option.map TargetRecord.clearFixes) }⟩ := by
  simp [setStationRule, h, ha]

/-- Settles O25: a refusal changes no condition of R128; the setup, which an accepted SET_STATION writes, is one, but the
engine is then STOPPED, so that the emitter is OFF before and after. -/
theorem setStationWritesSetup : Obligations.SetStationWritesSetup := by
  intro a s hready hlight
  refine ⟨fun hrunning => ?running, fun hstopped hout => ?outOfRange,
    fun hstopped hes hes' hns hns' hhs hhs' hhi ho => ?accepted⟩
  case running => exact exec_setStation_refused hready hlight (setStationRule_running hrunning a)
  case outOfRange =>
    have hbad : stationInRange a = false := by
      rw [← Bool.not_eq_true, stationInRange_iff]
      omega
    exact exec_setStation_refused hready hlight (setStationRule_outOfRange hstopped hbad)
  case accepted =>
    have hgood : stationInRange a = true :=
      (stationInRange_iff a).2 ⟨⟨⟨hes, hes'⟩, ⟨hns, hns'⟩, hhs, hhs'⟩, hhi, ho⟩
    have hoff : s.light.emitter = .off := State.emitter_off_of_unlit hlight (Engine.wantsLight_stopped hstopped)
    rw [exec_setStation_ready hready, setStationRule_accepted hstopped hgood]
    exact congrArg _ (State.followLight_stopped hstopped hoff)

end Sys2Proof.Machine

namespace Sys2Proof.Machine

open Sys2Proof

/-! ### Records that follow one another

Nothing but a load makes a record, and what is written to one keeps its prism, its class and its blink code. -/

/-- The record keeps what no write to it changes: prism, class and blink code, and misses within 4 (R18, R39). -/
structure TargetRecord.Follows (r q : TargetRecord) : Prop where
  prism : q.prism = r.prism
  cls : q.cls = r.cls
  blink : q.blink = r.blink
  misses : r.misses ≤ 4 → q.misses ≤ 4

theorem TargetRecord.Follows.refl (r : TargetRecord) : r.Follows r := ⟨rfl, rfl, rfl, id⟩

theorem TargetRecord.Follows.trans {r q p : TargetRecord} (h : r.Follows q) (h' : q.Follows p) : r.Follows p :=
  ⟨h'.prism.trans h.prism, h'.cls.trans h.cls, h'.blink.trans h.blink, fun hm => h'.misses (h.misses hm)⟩

/-- Every record of the second table follows the one that the first has in the same slot. -/
structure TableFollows (table new : List (Option TargetRecord)) : Prop where
  length : new.length = table.length
  records : ∀ (i : Nat) (q : TargetRecord), new[i]? = some (some q) → ∃ r, table[i]? = some (some r) ∧ r.Follows q

/-- An ACTIVE record of a prism stands in a slot. -/
def ActiveAt (table : List (Option TargetRecord)) (i prism : Nat) : Prop :=
  ∃ r, table[i]? = some (some r) ∧ r.state = .active ∧ r.prism = prism

/-- The same slots hold ACTIVE records, of the same prisms. -/
def SameActive (table new : List (Option TargetRecord)) : Prop := ∀ i p, ActiveAt new i p ↔ ActiveAt table i p

theorem SameActive.of_eq {table new : List (Option TargetRecord)} (h : new = table) : SameActive table new := by
  subst h; exact fun _ _ => Iff.rfl

theorem TableFollows.of_eq {table new : List (Option TargetRecord)} (h : new = table) : TableFollows table new := by
  subst h; exact ⟨rfl, fun _ q hq => ⟨q, hq, .refl q⟩⟩

theorem TableFollows.trans {t u v : List (Option TargetRecord)} (h : TableFollows t u) (h' : TableFollows u v) :
    TableFollows t v := by
  refine ⟨h'.length.trans h.length, fun i q hq => ?_⟩
  obtain ⟨p, hp, hpq⟩ := h'.records i q hq
  obtain ⟨r, hr, hrp⟩ := h.records i p hp
  exact ⟨r, hr, hrp.trans hpq⟩

/-- A slot written with a record that follows the one there. -/
theorem TableFollows.set {table : List (Option TargetRecord)} {i : Nat} {r q : TargetRecord}
    (h : table[i]? = some (some r)) (hf : r.Follows q) : TableFollows table (table.set i (some q)) := by
  refine ⟨List.length_set, fun j p hp => ?_⟩
  obtain ⟨hlt, -⟩ := List.getElem?_eq_some_iff.mp h
  by_cases hij : i = j
  · subst hij
    rw [List.getElem?_set_self hlt] at hp
    cases hp
    exact ⟨r, h, hf⟩
  · rw [List.getElem?_set_ne hij] at hp
    exact ⟨p, hp, .refl p⟩

/-- A slot made FREE. -/
theorem TableFollows.free (table : List (Option TargetRecord)) (i : Nat) : TableFollows table (table.set i none) := by
  refine ⟨List.length_set, fun j p hp => ?_⟩
  rw [List.getElem?_set] at hp
  split at hp
  · split at hp <;> cases hp
  · exact ⟨p, hp, .refl p⟩

/-- The ACTIVE records after a slot is written: the new record there, and the old ones elsewhere. -/
theorem activeAt_set {table : List (Option TargetRecord)} {i j p : Nat} {o : Option TargetRecord} :
    ActiveAt (table.set i o) j p ↔
      (j = i ∧ i < table.length ∧ ∃ r, o = some r ∧ r.state = .active ∧ r.prism = p) ∨ j ≠ i ∧ ActiveAt table j p := by
  unfold ActiveAt
  by_cases hij : j = i
  · subst hij
    by_cases hlt : j < table.length <;> simp [hlt]
  · simp [hij, List.getElem?_set_ne (Ne.symm hij)]

/-- A slot written without a change of an ACTIVE record. -/
theorem SameActive.set {table : List (Option TargetRecord)} {i : Nat} {old new : Option TargetRecord}
    (h : table[i]? = some old)
    (hn : ∀ p, (∃ r, new = some r ∧ r.state = .active ∧ r.prism = p) ↔
      ∃ r, old = some r ∧ r.state = .active ∧ r.prism = p) :
    SameActive table (table.set i new) := by
  intro j p
  obtain ⟨hlt, rfl⟩ := List.getElem?_eq_some_iff.mp h
  rw [activeAt_set]
  by_cases hij : j = i
  · subst hij
    simp [hlt, hn p, ActiveAt]
  · simp [hij]

/-! ### The three invariants, and what keeps them -/

/-- What an aim, or the suspend record of one, is about: a slot and the prism in it. -/
def Aim.subject (a : Aim) : Nat × Nat := (a.slot, a.prism)

/-- What a suspend record is about. -/
def Suspension.subject (u : Suspension) : Nat × Nat := (u.slot, u.prism)

/-- What the part aims at, running or suspended. -/
def State.subject (s : State) : Option (Nat × Nat) := s.engine.aim.map Aim.subject

/-- The aim context names the one ACTIVE record (R20), a suspend record the same slot and prism, and out of the aim states
there is neither. Unlike `ActiveMatches` alone it is kept by every part of a step. -/
structure State.Aimed (s : State) : Prop where
  active_iff : ∀ i p, ActiveAt s.table i p ↔ s.subject = some (i, p)
  suspended : ∀ u x, s.engine.suspension = some u → s.subject = some x → u.subject = x
  idle : s.engine.state.isAim = false → s.subject = none ∧ s.engine.suspension = none

/-- No record is ACTIVE, and there is no aim. -/
structure State.Unaimed (s : State) : Prop where
  none_active : ∀ i p, ¬ ActiveAt s.table i p
  no_aim : s.subject = none
  no_suspension : s.engine.suspension = none

/-- The tables and queues of `t` keep the laws that those of `s` meet. -/
structure State.Orderly (s t : State) : Prop where
  sized : s.Sized → t.Sized
  lawful : s.TablesLawful → t.TablesLawful

/-- The state `t` keeps each of the three invariants that `s` meets. -/
structure State.Sound (s t : State) : Prop extends State.Orderly s t where
  aimed : s.Aimed → t.Aimed

theorem State.aimed_of_activeMatches {s : State} (hc : s.EngineConsistent) (h : s.ActiveMatches) : s.Aimed := by
  obtain ⟨hactive, haimed, hsusp⟩ := h
  refine ⟨fun i p => ⟨?_, ?_⟩, ?_, ?_⟩
  · rintro ⟨r, hr, hs, rfl⟩
    obtain ⟨a, ha, rfl⟩ := hactive i r hr hs
    obtain ⟨q, hq, -, hp⟩ := haimed a ha
    rw [hr] at hq
    cases hq
    simp [State.subject, ha, Aim.subject, hp]
  · intro h
    obtain ⟨a, ha, hx⟩ := Option.map_eq_some_iff.mp h
    cases hx
    exact haimed a ha
  · intro u x hu hx
    obtain ⟨a, ha, rfl⟩ := Option.map_eq_some_iff.mp hx
    obtain ⟨h1, h2⟩ := hsusp a u ha hu
    simp [Suspension.subject, Aim.subject, h1, h2]
  · intro hidle
    have ha := hc.aim_present
    have hu := hc.suspension_present
    rw [hidle] at ha
    have hne : s.engine.state ≠ .suspended := by rintro e; rw [e] at hidle; cases hidle
    exact ⟨by simpa [State.subject] using ha, by simpa [hne] using hu⟩

theorem State.Aimed.activeMatches {s : State} (h : s.Aimed) : s.ActiveMatches := by
  refine ⟨fun i r hr hs => ?_, fun a ha => ?_, fun a u ha hu => ?_⟩
  · obtain ⟨a, ha, hx⟩ := Option.map_eq_some_iff.mp ((h.active_iff i r.prism).mp ⟨r, hr, hs, rfl⟩)
    exact ⟨a, ha, congrArg Prod.fst hx⟩
  · exact (h.active_iff a.slot a.prism).mpr (by simp [State.subject, ha, Aim.subject])
  · have hx := h.suspended u a.subject hu (by simp [State.subject, ha])
    exact ⟨congrArg Prod.fst hx, congrArg Prod.snd hx⟩

theorem State.Unaimed.aimed {s : State} (h : s.Unaimed) : s.Aimed := by
  obtain ⟨hactive, haim, hsusp⟩ := h
  refine ⟨fun i p => ?_, fun u x hu => ?_, fun _ => ⟨haim, hsusp⟩⟩
  · simp [hactive i p, haim]
  · rw [hsusp] at hu; cases hu

/-- Out of the aim states nothing is aimed at. -/
theorem State.Aimed.unaimed {s : State} (h : s.Aimed) (hs : s.engine.state.isAim = false) : s.Unaimed := by
  obtain ⟨haim, hsusp⟩ := h.idle hs
  refine ⟨fun i p hp => ?_, haim, hsusp⟩
  rw [h.active_iff, haim] at hp
  cases hp

theorem State.Orderly.refl (s : State) : s.Orderly s := ⟨id, id⟩

theorem State.Orderly.trans {s t u : State} (h : s.Orderly t) (h' : t.Orderly u) : s.Orderly u :=
  ⟨fun hs => h'.sized (h.sized hs), fun hs => h'.lawful (h.lawful hs)⟩

theorem State.Sound.refl (s : State) : s.Sound s := ⟨.refl s, id⟩

theorem State.Sound.trans {s t u : State} (h : s.Sound t) (h' : t.Sound u) : s.Sound u :=
  ⟨h.toOrderly.trans h'.toOrderly, fun hs => h'.aimed (h.aimed hs)⟩

/-- `trans` from its last step: the state before that step is read off the step. -/
theorem State.Sound.after {s t u : State} (h' : t.Sound u) (h : s.Sound t) : s.Sound u := h.trans h'

/-- A choice between two states is sound where each is. -/
theorem State.Sound.ite {s t u : State} {c : Prop} [Decidable c] (ht : c → s.Sound t) (hu : ¬ c → s.Sound u) :
    s.Sound (if c then t else u) := by
  split
  · exact ht ‹_›
  · exact hu ‹_›

/-- What a frame is about: the transmit queue holds at most one frame about each (R151). A SIGHTING is about its prism;
PRESENCE (`none`) and INTENT (`some none`) are a topic each. -/
def Frame.topic : Frame → Option (Option Nat)
  | .presence .. => none
  | .intent .. => some none
  | .sighting prism .. => some (some prism)

/-- The transmit queue stays within four places, and within one frame about each topic. -/
structure QueueKept (q q' : List Frame) : Prop where
  length : q.length ≤ 4 → q'.length ≤ 4
  topics : ∀ k : Option (Option Nat), q.countP (fun f => f.topic = k) ≤ 1 → q'.countP (fun f => f.topic = k) ≤ 1

theorem QueueKept.of_sublist {q q' : List Frame} (h : q'.Sublist q) : QueueKept q q' :=
  ⟨fun hl => h.length_le.trans hl, fun _ hc => h.countP_le.trans hc⟩

/-- A test that picks out the frames about one topic, in whatever words. -/
theorem QueueKept.countP {q q' : List Frame} (h : QueueKept q q') {p : Frame → Bool} {k : Option (Option Nat)}
    (hp : ∀ f : Frame, p f = decide (f.topic = k)) (hle : q.countP p ≤ 1) : q'.countP p ≤ 1 := by
  obtain rfl : p = fun f => decide (f.topic = k) := funext hp
  exact h.topics k hle

theorem QueueKept.refl (q : List Frame) : QueueKept q q := .of_sublist (.refl q)

/-- How the tables and queues of one state come from those of another: no record made, no block count above 15, and what is
added to a queue added by its own rule. -/
structure State.Descends (s t : State) : Prop where
  table : TableFollows s.table t.table
  sectors : t.sectors.length = s.sectors.length
  blocks : (∀ e ∈ s.sectors, e.block ≤ 15) → ∀ e ∈ t.sectors, e.block ≤ 15
  peers : t.peers.table.length = s.peers.table.length
  observations : s.link.observations.length ≤ 16 → t.link.observations.length ≤ 16
  queue : QueueKept s.line.queue t.line.queue
  fine : s.fine < finePerMs → t.fine < finePerMs

theorem State.Descends.orderly {s t : State} (h : s.Descends t) : s.Orderly t := by
  refine ⟨fun hs => ?_, fun hl => ?_⟩
  · obtain ⟨h1, h2, h3, h4, h5, h6⟩ := hs
    exact ⟨h.table.length.trans h1, h.sectors.trans h2, h.peers.trans h3, h.observations h4, h.queue.length h5, h.fine h6⟩
  · obtain ⟨hprisms, hcodes, hmisses, hblocks, h1, h2, h3⟩ := hl
    refine ⟨fun i j r q hr hq hp => ?_, fun i j r q hr hq hcr hcq hb => ?_, fun r hr => ?_, h.blocks hblocks,
      h.queue.countP (k := none) (fun f => by cases f <;> simp [Frame.topic]) h1,
      h.queue.countP (k := some none) (fun f => by cases f <;> simp [Frame.topic]) h2,
      fun p => h.queue.countP (k := some (some p)) (fun f => by cases f <;> simp [Frame.topic]) (h3 p)⟩
    · obtain ⟨r', hr', fr⟩ := h.table.records i r hr
      obtain ⟨q', hq', fq⟩ := h.table.records j q hq
      exact hprisms i j r' q' hr' hq' (by rw [← fr.prism, ← fq.prism, hp])
    · obtain ⟨r', hr', fr⟩ := h.table.records i r hr
      obtain ⟨q', hq', fq⟩ := h.table.records j q hq
      exact hcodes i j r' q' hr' hq' (fr.cls ▸ hcr) (fq.cls ▸ hcq) (by rw [← fr.blink, ← fq.blink, hb])
    · obtain ⟨i, hi⟩ := List.mem_iff_getElem?.mp hr
      obtain ⟨r', hr', fr⟩ := h.table.records i r hi
      exact fr.misses (hmisses r' (List.mem_of_getElem? hr'))

/-- The tables as they were, and the queues no longer than they were. -/
structure State.Calm (s t : State) : Prop where
  table : t.table = s.table
  sectors : t.sectors = s.sectors
  peers : t.peers.table.length = s.peers.table.length
  observations : t.link.observations.length ≤ s.link.observations.length
  queue : t.line.queue.Sublist s.line.queue
  fine : t.fine = s.fine

theorem State.Calm.descends {s t : State} (h : s.Calm t) : s.Descends t := by
  obtain ⟨ht, hs, hp, ho, hq, hf⟩ := h
  refine ⟨.of_eq ht, by rw [hs], by rw [hs]; exact id, hp, fun hle => ho.trans hle, .of_sublist hq, by rw [hf]; exact id⟩

/-- A change beside the tables and the queues. -/
theorem State.Calm.beside {s t : State} (table : t.table = s.table := by rfl)
    (sectors : t.sectors = s.sectors := by rfl) (peers : t.peers.table = s.peers.table := by rfl)
    (observations : t.link.observations = s.link.observations := by rfl)
    (queue : t.line.queue = s.line.queue := by rfl) (fine : t.fine = s.fine := by rfl) : s.Calm t :=
  ⟨table, sectors, by rw [peers], by rw [observations], by rw [queue], fine⟩

/-- The aim is about the same record, and so is a suspend record that it has; an aim state may be entered, but not left. -/
structure State.SameAim (s t : State) : Prop where
  subject : t.subject = s.subject
  suspension : ∀ u, t.engine.suspension = some u →
    s.subject = some u.subject ∨ s.engine.suspension.map Suspension.subject = some u.subject
  idle : t.engine.state.isAim = false → s.engine.state.isAim = false

theorem State.SameAim.of_engine {s t : State} (h : t.engine = s.engine) : s.SameAim t := by
  refine ⟨by rw [State.subject, h]; rfl, fun u hu => .inr ?_, fun hi => h ▸ hi⟩
  rw [← h, hu]
  rfl

theorem State.Aimed.of_sameAim {s t : State} (h : s.Aimed) (ha : s.SameAim t) (ht : SameActive s.table t.table) :
    t.Aimed := by
  refine ⟨fun i p => by rw [ht i p, h.active_iff, ha.subject], fun u x hu hx => ?_, fun hi => ?_⟩
  · rw [ha.subject] at hx
    rcases ha.suspension u hu with hs | hs
    · exact Option.some.inj (hs.symm.trans hx)
    · obtain ⟨v, hv, hvu⟩ := Option.map_eq_some_iff.mp hs
      rw [← hvu]
      exact h.suspended v x hv hx
  · obtain ⟨haim, hsusp⟩ := h.idle (ha.idle hi)
    refine ⟨ha.subject.trans haim, ?_⟩
    cases hu : t.engine.suspension with
    | none => rfl
    | some u =>
      have := ha.suspension u hu
      simp [haim, hsusp] at this

theorem State.Unaimed.of_sameAim {s t : State} (h : s.Unaimed) (ha : s.SameAim t) (ht : SameActive s.table t.table) :
    t.Unaimed := by
  obtain ⟨hactive, haim, hsusp⟩ := h
  refine ⟨fun i p hp => hactive i p ((ht i p).mp hp), ha.subject.trans haim, ?_⟩
  cases hu : t.engine.suspension with
  | none => rfl
  | some u =>
    have := ha.suspension u hu
    simp [haim, hsusp] at this

/-- A change of the tables and queues that leaves the ACTIVE records and the aim's subject keeps the invariants. -/
theorem State.Descends.sound {s t : State} (h : s.Descends t) (ha : s.SameAim t) (ht : SameActive s.table t.table) :
    s.Sound t :=
  ⟨h.orderly, fun hs => hs.of_sameAim ha ht⟩

theorem State.Sound.of_calm {s t : State} (h : s.Calm t) (ha : s.SameAim t) : s.Sound t :=
  h.descends.sound ha (.of_eq h.table)

/-- A change beside the tables, the queues and the engine keeps the invariants. -/
theorem State.Sound.of_calm_engine {s t : State} (h : s.Calm t) (he : t.engine = s.engine) : s.Sound t :=
  .of_calm h (.of_engine he)

/-- The same where each part of the state that counts is the old one by definition. -/
theorem State.Sound.beside {s t : State} (h : s.Calm t := by exact State.Calm.beside)
    (he : t.engine = s.engine := by rfl) : s.Sound t :=
  .of_calm_engine h he

end Sys2Proof.Machine

namespace Sys2Proof.Machine

open Sys2Proof

variable (s : State)

/-! ### Updates beside the tables -/

/-- An engine whose aim context keeps its subject, and whose suspend record stands, in whatever aim state. -/
theorem State.SameAim.of_aim {s t : State} (ha : t.engine.aim.map Aim.subject = s.engine.aim.map Aim.subject)
    (hu : t.engine.suspension = s.engine.suspension)
    (hs : t.engine.state.isAim = false → s.engine.state.isAim = false) : s.SameAim t :=
  ⟨ha, fun u h => .inr (by rw [← hu, h]; rfl), hs⟩

theorem State.respond_sound (code : Nat) (a : Answer) : s.Sound (s.respond code a) := .beside

theorem State.raise_sound (m : EventMark) : s.Sound (s.raise m) := .beside

theorem State.onDrive_sound (ax : Axis) (f : Drive → Drive) : s.Sound (s.onDrive ax f) := by
  cases ax <;> exact .beside

theorem State.followLight_sound : s.Sound s.followLight :=
  .of_calm_engine (by constructor <;> simp) (by simp)

theorem State.onAim_sound {f : Aim → Aim} (hf : ∀ a, (f a).subject = a.subject) : s.Sound (s.onAim f) :=
  .of_calm .beside (.of_aim (by simp [Function.comp_def, hf]) rfl id)

theorem State.enter_calm (e : EngineState) : s.Calm (s.enter e) := by constructor <;> simp

/-- An aim state may be entered from any state, the others from one another. -/
theorem State.enter_sound (e : EngineState) (h : e.isAim = true ∨ s.engine.state.isAim = false) : s.Sound (s.enter e) := by
  refine State.Sound.of_calm (s.enter_calm e) (.of_aim (by simp) (by simp) fun he => ?_)
  rw [State.enter_state] at he
  exact h.resolve_left (by simp [he])

theorem State.Unaimed.enter {s : State} (h : s.Unaimed) (e : EngineState) : (s.enter e).Unaimed := by
  obtain ⟨hactive, haim, hsusp⟩ := h
  exact ⟨by simpa using hactive, by simpa [State.subject] using haim, by simpa using hsusp⟩

theorem State.dropOpen_sound : s.Sound s.dropOpen :=
  .of_calm .beside (.of_aim rfl rfl id)

theorem State.beginDwell_sound : s.Sound s.beginDwell :=
  .of_calm .beside (.of_aim rfl rfl id)

theorem State.moveAxes_sound (x : Angles) : s.Sound (s.moveAxes x) :=
  .of_calm .beside (.of_aim (Option.map_map ..) rfl id)

theorem State.adjustAxes_sound (x : Angles) : s.Sound (s.adjustAxes x) :=
  (s.onDrive_sound .hz _).trans (State.onDrive_sound _ .vt _)

theorem State.stopAxes_sound : s.Sound s.stopAxes :=
  (s.onDrive_sound .hz _).trans (State.onDrive_sound _ .vt _)

theorem State.openObservation_sound (kind : ObsKind) (x : Angles) : s.Sound (s.openObservation kind x) := by
  unfold State.openObservation
  split
  · exact .refl s
  · exact .of_calm .beside (.of_aim rfl rfl id)

/-! Chains of updates, read from the last one inwards. -/

theorem State.Sound.onAim {s t : State} {f : Aim → Aim} (h : s.Sound t) (hf : ∀ a, (f a).subject = a.subject) :
    s.Sound (t.onAim f) :=
  h.trans (t.onAim_sound hf)

theorem State.Sound.enter {s t : State} {e : EngineState} (h : s.Sound t) (he : e.isAim = true) : s.Sound (t.enter e) :=
  h.trans (t.enter_sound e (.inl he))

theorem State.Sound.moveAxes {s t : State} {x : Angles} (h : s.Sound t) : s.Sound (t.moveAxes x) :=
  h.trans (t.moveAxes_sound x)

/-! ### The queues -/

theorem State.giveObservation_descends (o : Observation) : s.Descends (s.giveObservation o) := by
  refine ⟨.of_eq (by simp), by simp, by simp, by simp, fun h => ?_, by simpa using .refl _, by simp⟩
  rw [State.giveObservation_queue]
  split
  · rw [List.length_append, List.length_singleton]; omega
  · exact h

theorem State.giveObservation_sound (o : Observation) : s.Sound (s.giveObservation o) :=
  (s.giveObservation_descends o).sound (.of_engine (by simp)) (.of_eq (by simp))

theorem replaceFrame_length (f : Frame) (q : List Frame) : (replaceFrame f q).length = q.length := by
  induction q with
  | nil => rfl
  | cons g gs ih => unfold replaceFrame; split <;> simp [ih]

/-- A frame takes the place of the one about the same topic (rows 2 to 4 of R152). -/
theorem Frame.replaces_iff (f g : Frame) : f.replaces g = true ↔ f.topic = g.topic := by
  cases f <;> cases g <;> simp [Frame.replaces, Frame.topic]

theorem replaceFrame_topics (f : Frame) (q : List Frame) (k : Option (Option Nat)) :
    (replaceFrame f q).countP (fun g => g.topic = k) = q.countP (fun g => g.topic = k) := by
  induction q with
  | nil => rfl
  | cons g gs ih =>
    unfold replaceFrame
    split
    · rename_i h
      simp [List.countP_cons, (f.replaces_iff g).mp h]
    · simp [List.countP_cons, ih]

theorem dropSighting_sublist (q : List Frame) : (dropSighting q).Sublist q := by
  induction q with
  | nil => exact .refl _
  | cons g gs ih =>
    unfold dropSighting
    split
    · exact List.sublist_cons_self g gs
    · exact ih.cons_cons g

theorem dropSighting_length {q : List Frame} (h : q.any Frame.isSighting = true) :
    (dropSighting q).length + 1 = q.length := by
  induction q with
  | nil => cases h
  | cons g gs ih =>
    unfold dropSighting
    split
    · rfl
    · rename_i hg
      simp only [List.any_cons, hg, Bool.false_or] at h
      simp [ih h]

/-- A new frame takes the place of the one about its topic, or comes where there is none (R152). -/
theorem placeFrame_topics (f : Frame) {q : List Frame} {k : Option (Option Nat)} (h : q.countP (fun g => g.topic = k) ≤ 1) :
    (placeFrame f q).countP (fun g => g.topic = k) ≤ 1 := by
  have happend : ∀ l : List Frame, l.Sublist q → ¬ q.any f.replaces = true →
      (l ++ [f]).countP (fun g => g.topic = k) ≤ 1 := by
    intro l hl hnew
    by_cases hf : f.topic = k
    · have hnone : l.countP (fun g => g.topic = k) = 0 := by
        rw [List.countP_eq_zero]
        intro g hg hgk
        refine hnew (List.any_eq_true.mpr ⟨g, hl.subset hg, (f.replaces_iff g).mpr ?_⟩)
        rw [hf, of_decide_eq_true hgk]
      simp [List.countP_append, hnone, hf]
    · have hle : l.countP (fun g => g.topic = k) ≤ 1 := hl.countP_le.trans h
      simpa [List.countP_append, hf] using hle
  unfold placeFrame
  split
  · rw [replaceFrame_topics]; exact h
  · rename_i hnew
    split
    · exact happend q (.refl q) hnew
    · split
      · exact happend _ (dropSighting_sublist q) hnew
      · exact h

theorem placeFrame_length (f : Frame) {q : List Frame} (h : q.length ≤ 4) : (placeFrame f q).length ≤ 4 := by
  unfold placeFrame
  split
  · rw [replaceFrame_length]; exact h
  · split
    · rw [List.length_append, List.length_singleton]; omega
    · split
      · rename_i hs
        have := dropSighting_length hs
        rw [List.length_append, List.length_singleton]; omega
      · exact h

/-- An offered frame keeps the laws of the queue (R151, R152). -/
theorem placeFrame_kept (f : Frame) (q : List Frame) : QueueKept q (placeFrame f q) :=
  ⟨placeFrame_length f, fun _ => placeFrame_topics f⟩

theorem State.offerFrame_descends (f : Frame) : s.Descends (s.offerFrame f) := by
  refine ⟨.of_eq (by simp), by simp, by simp, by simp, by simp, ?_, by simp⟩
  rw [State.offerFrame_offered]
  dsimp only
  unfold SiteLine.offered
  split
  · exact placeFrame_kept f s.line.queue
  · exact .refl _

theorem State.offerFrame_sound (f : Frame) : s.Sound (s.offerFrame f) :=
  (s.offerFrame_descends f).sound (.of_engine (by simp)) (.of_eq (by simp))

/-! ### The tables -/

theorem State.record_eq_some {s : State} {i : Nat} {r : TargetRecord} (h : s.record i = some r) :
    s.table[i]? = some (some r) := by
  unfold State.record at h
  cases ht : s.table[i]? with
  | none => rw [ht] at h; cases h
  | some o => rw [ht] at h; exact congrArg some h

/-- A table in the place of the present one. -/
theorem State.Descends.of_table {s : State} {table : List (Option TargetRecord)} (h : TableFollows s.table table) :
    s.Descends { s with table := table } :=
  ⟨h, rfl, id, rfl, id, .refl _, id⟩

theorem State.setRecord_descends {s : State} {i : Nat} {r q : TargetRecord} (h : s.record i = some r) (hf : r.Follows q) :
    s.Descends (s.setRecord i (some q)) :=
  .of_table (.set (State.record_eq_some h) hf)

/-- A record written in the place of one that it follows, ACTIVE where that one is. -/
theorem State.setRecord_sound {s : State} {i : Nat} {r q : TargetRecord} (h : s.record i = some r) (hf : r.Follows q)
    (ha : q.state = .active ↔ r.state = .active) : s.Sound (s.setRecord i (some q)) :=
  (State.setRecord_descends h hf).sound (.of_engine rfl) (.set (State.record_eq_some h) fun p => by
    simp [ha, hf.prism])

theorem TargetRecord.takeFix_follows {f : Fix} {r q : TargetRecord} (h : r.takeFix f = some q) :
    r.Follows q ∧ q.state = r.state := by
  unfold TargetRecord.takeFix at h
  split at h
  · cases h; exact ⟨⟨rfl, rfl, rfl, id⟩, rfl⟩
  · split at h
    · cases h; exact ⟨⟨rfl, rfl, rfl, id⟩, rfl⟩
    · cases h

theorem State.offerOwnFix_sound (prism : Nat) (f : Fix) : s.Sound (s.offerOwnFix prism f) := by
  unfold State.offerOwnFix
  split
  · exact .refl s
  · split
    · exact .refl s
    · rename_i r hr
      split
      · exact .refl s
      · rename_i q hq
        obtain ⟨hf, hs⟩ := TargetRecord.takeFix_follows hq
        have hset := State.setRecord_sound hr hf (by rw [hs])
        exact .ite (fun _ => hset.trans (State.offerFrame_sound _ _)) fun _ => hset

theorem State.changeBlock_descends (o : AimOutcome) (k : Nat) : s.Descends (s.changeBlock o k) := by
  refine ⟨.of_eq rfl, List.length_modify .., fun h e he => ?_, rfl, id, .refl _, id⟩
  obtain ⟨i, hi⟩ := List.mem_iff_getElem?.mp he
  rw [State.changeBlock, List.getElem?_modify] at hi
  obtain ⟨d, hd, rfl⟩ := Option.map_eq_some_iff.mp hi
  have hle := h d (List.mem_of_getElem? hd)
  have hafter : blockAfter o d.block ≤ 15 := by cases o <;> simp only [blockAfter] <;> omega
  split
  · exact hafter
  · exact hle

/-! ### Closing an observation -/

theorem State.offerClosedFix_sound (o : OpenObs) (c : Closing) (g : Option Grid) : s.Sound (s.offerClosedFix o c g) := by
  cases g with
  | none => exact .refl s
  | some g => exact s.offerOwnFix_sound _ _

theorem State.closeObservation_sound (range : Option Nat) (offers : Bool) :
    s.Sound (s.closeObservation range offers) := by
  unfold State.closeObservation
  split
  · exact .refl s
  · rename_i o _
    dsimp only
    generalize observationGrid s.setup o.hz o.v (range.getD o.heldSd) = g
    have hgiven := s.dropOpen_sound.trans
      (State.giveObservation_sound _ (closedObservation o (closingOf range) range g))
    have hoffered := Sound.ite (c := offers = true)
      (fun _ => hgiven.trans (State.offerClosedFix_sound _ o (closingOf range) g)) fun _ => hgiven
    exact .ite (fun _ => hoffered.trans (State.onAim_sound _ fun _ => rfl)) fun _ => hoffered

theorem State.chanceObservation_sound (code : Nat) (x : Angles) : s.Sound (s.chanceObservation code x) := by
  unfold State.chanceObservation
  split
  · exact .refl s
  · have hcounted : s.Sound { s with engine := { s.engine with sequence := nextSequence s.engine.sequence } } :=
      .of_calm .beside (.of_aim rfl rfl id)
    exact hcounted.trans (State.giveObservation_sound _ _)

/-! ### The end of an aim -/

theorem TargetRecord.missesAfter_le (r : TargetRecord) : r.missesAfter ≤ 4 := Nat.min_le_right _ 4

theorem TargetRecord.applyOutcome_follows (now lock : Nat) (ranged : Bool) (o : AimOutcome) (r : TargetRecord) :
    r.Follows (r.applyOutcome now lock ranged o) := by
  refine ⟨?_, ?_, ?_, fun h => ?_⟩
  · rw [TargetRecord.applyOutcome_frame]
  · rw [TargetRecord.applyOutcome_frame]
  · rw [TargetRecord.applyOutcome_frame]
  · cases o with
    | observed =>
      cases ranged
      · exact h
      · exact Nat.zero_le 4
    | missed =>
      simp only [TargetRecord.applyOutcome, TargetRecord.setDue]
      split <;> exact r.missesAfter_le
    | _ => exact h

theorem TargetRecord.leaveActive_not_active (now : Nat) (r : TargetRecord) : (r.leaveActive now).state ≠ .active := by
  unfold TargetRecord.leaveActive TargetRecord.dropDefer
  split
  · split <;> simp
  · simp

/-- The end of an aim writes the record it is about, which leaves ACTIVE (R37). -/
theorem TargetRecord.endAim_follows (now lock : Nat) (ranged : Bool) (o : AimOutcome) (defer : Option Nat)
    (r : TargetRecord) : r.Follows (r.endAim now lock ranged o defer) ∧ (r.endAim now lock ranged o defer).state ≠ .active := by
  obtain ⟨hframe, -⟩ := TargetRecord.endAim_writes now lock ranged o defer r
  have hout := r.applyOutcome_follows now lock ranged o
  refine ⟨⟨?_, ?_, ?_, fun h => ?_⟩, ?_⟩
  · rw [hframe]; exact hout.prism
  · rw [hframe]; exact hout.cls
  · rw [hframe]; exact hout.blink
  · rw [hframe]; exact hout.misses h
  · exact TargetRecord.leaveActive_not_active now _

theorem State.discardAim_calm : s.Calm s.discardAim := .beside

theorem State.writeOutcome_orderly (o : AimOutcome) (defer : Option Nat) (a : Aim) :
    s.Orderly (s.writeOutcome o defer a) := by
  unfold State.writeOutcome
  split
  · exact .refl s
  · rename_i r hr
    have hset := (State.setRecord_descends hr
      (r.endAim_follows s.clock (a.lastLock.getD s.clock) a.ranged o defer).1).orderly
    dsimp only
    split
    · exact hset.trans (State.raise_sound _ _).toOrderly
    · exact hset

theorem State.writeBlock_orderly (o : AimOutcome) (a : Aim) : s.Orderly (s.writeBlock o a) := by
  unfold State.writeBlock
  split
  · exact (s.changeBlock_descends o _).orderly
  · exact .refl s

theorem State.finishAim_orderly (o : AimOutcome) (defer : Option Nat) : s.Orderly (s.finishAim o defer) := by
  have hclosed := (s.closeObservation_sound none true).toOrderly
  unfold State.finishAim
  dsimp only
  split
  · exact hclosed.trans (State.discardAim_calm _).descends.orderly
  · exact hclosed.trans <| (State.writeOutcome_orderly _ o defer _).trans <|
      (State.writeBlock_orderly _ o _).trans (State.discardAim_calm _).descends.orderly

/-- The table after the outcome of an aim is handed over. -/
theorem State.writeOutcome_table {s : State} {a : Aim} {r : TargetRecord} (h : s.record a.slot = some r) (o : AimOutcome)
    (defer : Option Nat) : (s.writeOutcome o defer a).table =
      s.table.set a.slot (some (r.endAim s.clock (a.lastLock.getD s.clock) a.ranged o defer)) := by
  unfold State.writeOutcome
  rw [h]
  dsimp only
  split <;> rfl

/-- With the aimed record freed or taken out of ACTIVE, none is ACTIVE. -/
theorem State.Aimed.none_active_set {s : State} (h : s.Aimed) {a : Aim} (ha : s.engine.aim = some a)
    {o : Option TargetRecord} (ho : ∀ r, o = some r → r.state ≠ .active) (i p : Nat) :
    ¬ ActiveAt (s.table.set a.slot o) i p := by
  rw [activeAt_set]
  rintro (⟨-, -, r, hr, hs, -⟩ | ⟨hne, hp⟩)
  · exact ho r hr hs
  · rw [h.active_iff, State.subject, ha] at hp
    cases hp
    exact hne rfl

/-- The end of an aim leaves no aim and no ACTIVE record (R37 step 4, R95 step 5). -/
theorem State.Aimed.finishAim {s : State} (h : s.Aimed) (o : AimOutcome) (defer : Option Nat) :
    (s.finishAim o defer).Unaimed := by
  have hclosed := (s.closeObservation_sound none true).aimed h
  unfold State.finishAim
  dsimp only
  split
  · rename_i hnone
    refine ⟨fun i p hp => ?_, rfl, rfl⟩
    have := (hclosed.active_iff i p).mp hp
    rw [State.subject, hnone] at this
    cases this
  · rename_i a ha
    obtain ⟨r, hr, -⟩ := (hclosed.active_iff a.slot a.prism).mpr (by simp [State.subject, ha, Aim.subject])
    refine ⟨fun i p => ?_, rfl, rfl⟩
    rw [State.discardAim_table, State.writeBlock_table, State.writeOutcome_table (State.record_of_table hr)]
    refine hclosed.none_active_set ha ?_ i p
    rintro q ⟨⟩
    exact (r.endAim_follows _ _ _ o defer).2

end Sys2Proof.Machine

namespace Sys2Proof.Machine

open Sys2Proof

variable (s : State)

/-! ### Looking at the records -/

theorem TargetRecord.returnIdle_follows (r : TargetRecord) : r.Follows r.returnIdle := ⟨rfl, rfl, rfl, id⟩

theorem State.lookIdle_follows (i : Nat) (r : TargetRecord) :
    r.Follows (s.lookIdle i r).record ∧ (s.lookIdle i r).record.state = r.state := by
  unfold State.lookIdle
  repeat' split
  all_goals exact ⟨⟨rfl, rfl, rfl, id⟩, rfl⟩

/-- A look at a record keeps it, ACTIVE or not (R60, R62). -/
theorem State.look_follows (i : Nat) (r : TargetRecord) :
    r.Follows (s.look i r).record ∧ ((s.look i r).record.state = .active ↔ r.state = .active) := by
  unfold State.look
  split
  · exact ⟨.refl r, Iff.rfl⟩
  · rename_i hd
    split
    · obtain ⟨hf, hs⟩ := s.lookIdle_follows i r.returnIdle
      exact ⟨r.returnIdle_follows.trans hf, by rw [hs, hd]; simp [TargetRecord.returnIdle]⟩
    · exact ⟨.refl r, Iff.rfl⟩
  · obtain ⟨hf, hs⟩ := s.lookIdle_follows i r
    exact ⟨hf, by rw [hs]⟩

/-- A candidate is made of the record that the look leaves (R61). -/
theorem State.look_candidate {i : Nat} {r : TargetRecord} {c : Candidate} (h : (s.look i r).candidate = some c) :
    c.slot = i ∧ c.record = (s.look i r).record := by
  have hidle : ∀ q : TargetRecord, (s.lookIdle i q).candidate = some c →
      c.slot = i ∧ c.record = (s.lookIdle i q).record := by
    intro q hq
    unfold State.lookIdle at hq ⊢
    split at hq
    · cases hq
    · rename_i hdue
      rw [if_neg hdue]
      split at hq
      · cases hq; exact ⟨rfl, rfl⟩
      · split at hq <;> cases hq
  unfold State.look at h ⊢
  split at h
  · cases h
  · split at h
    · rename_i hs hd
      simpa [hs, hd] using hidle _ h
    · cases h
  · rename_i hs
    simpa [hs] using hidle _ h

/-- The table after the ordinary pass, slot by slot (R59 step 2). -/
theorem State.lookedTable_getElem? (i : Nat) (table : List (Option TargetRecord)) (k : Nat) :
    (s.lookedTable i table)[k]? = table[k]?.map (Option.map fun r => (s.look (i + k) r).record) := by
  induction table generalizing i k with
  | nil => rfl
  | cons o os ih =>
    cases k with
    | zero => rfl
    | succ k =>
      simp only [State.lookedTable, List.getElem?_cons_succ, ih]
      rw [Nat.add_right_comm, Nat.add_assoc]

theorem State.lookedTable_length (i : Nat) (table : List (Option TargetRecord)) :
    (s.lookedTable i table).length = table.length := by
  induction table generalizing i with
  | nil => rfl
  | cons o os ih => simp [State.lookedTable, ih]

/-- Each candidate of the ordinary pass stands in its slot of the table that the pass leaves. -/
theorem State.lookedCandidates_mem {i : Nat} {table : List (Option TargetRecord)} {c : Candidate}
    (h : c ∈ s.lookedCandidates i table) : ∃ k, c.slot = i + k ∧ (s.lookedTable i table)[k]? = some (some c.record) := by
  induction table generalizing i with
  | nil => cases h
  | cons o os ih =>
    rcases List.mem_append.mp h with h | h
    · cases o with
      | none => cases h
      | some r =>
        obtain ⟨hslot, hrec⟩ := s.look_candidate (Option.mem_toList.mp h)
        exact ⟨0, hslot, by simp [State.lookedTable, hrec]⟩
    · obtain ⟨k, hslot, hrec⟩ := ih h
      exact ⟨k + 1, by omega, by simpa [State.lookedTable] using hrec⟩

theorem firstCandidate_mem {now : Nat} {axes : Angles} {cs : List Candidate} {c : Candidate}
    (h : firstCandidate now axes cs = some c) : c ∈ cs := by
  induction cs with
  | nil => cases h
  | cons d ds ih =>
    unfold firstCandidate at h
    split at h
    · cases h; exact List.mem_cons_self
    · rename_i b hb
      split at h
      · cases h; exact List.mem_cons_of_mem _ (ih hb)
      · cases h; exact List.mem_cons_self

theorem State.looked_follows : TableFollows s.table (s.lookedTable 0 s.table) := by
  refine ⟨s.lookedTable_length 0 s.table, fun i q hq => ?_⟩
  rw [State.lookedTable_getElem?] at hq
  obtain ⟨o, ho, hoq⟩ := Option.map_eq_some_iff.mp hq
  obtain ⟨r, rfl, rfl⟩ := Option.map_eq_some_iff.mp hoq
  exact ⟨r, ho, (s.look_follows _ r).1⟩

theorem State.looked_sameActive : SameActive s.table (s.lookedTable 0 s.table) := by
  intro i p
  unfold ActiveAt
  rw [State.lookedTable_getElem?, Nat.zero_add]
  constructor
  · rintro ⟨q, hq, hs, rfl⟩
    obtain ⟨o, ho, hoq⟩ := Option.map_eq_some_iff.mp hq
    obtain ⟨r, rfl, rfl⟩ := Option.map_eq_some_iff.mp hoq
    obtain ⟨hf, ha⟩ := s.look_follows i r
    exact ⟨r, ho, ha.mp hs, hf.prism.symm⟩
  · rintro ⟨r, hr, hs, rfl⟩
    obtain ⟨hf, ha⟩ := s.look_follows i r
    exact ⟨(s.look i r).record, by rw [hr]; rfl, ha.mpr hs, hf.prism⟩

/-! ### The selection -/

theorem State.offerIntent_sound (r : TargetRecord) (sd : Nat) : s.Sound (s.offerIntent r sd) :=
  .ite (fun _ => s.offerFrame_sound _) fun _ => .refl s

/-- The state of a hand-over before the INTENT and the moves: the record ACTIVE, the engine slewing with a new aim (R76). -/
def State.aimedAt (slot : Nat) (r : TargetRecord) (d : Direction) (s : State) : State :=
  let s1 := (s.setRecord slot (some { r with state := .active })).enter .slewing
  { s1 with engine := { s1.engine with aim := some (newAim s.clock slot r d) } }

theorem State.aimedAt_orderly {s : State} {slot : Nat} {r : TargetRecord} (h : s.record slot = some r) (d : Direction) :
    s.Orderly (s.aimedAt slot r d) := by
  have hset := State.setRecord_descends h (q := { r with state := .active }) ⟨rfl, rfl, rfl, id⟩
  have haim : ((s.setRecord slot (some { r with state := .active })).enter .slewing).Calm (s.aimedAt slot r d) := .beside
  exact hset.orderly.trans ((State.enter_calm _ .slewing).descends.orderly.trans haim.descends.orderly)

theorem State.Unaimed.aimedAt {s : State} (h : s.Unaimed) {slot : Nat} {r : TargetRecord} (hr : s.record slot = some r)
    (d : Direction) : (s.aimedAt slot r d).Aimed := by
  obtain ⟨hactive, -, hsusp⟩ := h
  obtain ⟨hlt, -⟩ := List.getElem?_eq_some_iff.mp (State.record_eq_some hr)
  have htable : (s.aimedAt slot r d).table = s.table.set slot (some { r with state := .active }) := by
    simp [State.aimedAt]
  have hsubject : (s.aimedAt slot r d).subject = some (slot, r.prism) := rfl
  have hnone : (s.aimedAt slot r d).engine.suspension = none := by simpa [State.aimedAt] using hsusp
  refine ⟨fun i p => ?_, fun u x hu => ?_, fun hi => ?_⟩
  · rw [htable, hsubject, activeAt_set]
    simp only [hactive, and_false, or_false, hlt, true_and, Option.some.injEq, exists_eq_left', Prod.mk.injEq,
      eq_comm (a := i)]
  · rw [hnone] at hu; cases hu
  · simp [State.aimedAt, EngineState.isAim] at hi

/-- The hand-over of a record in its slot keeps the laws of the tables. -/
theorem State.handOver_orderly {s : State} {slot : Nat} {r : TargetRecord} (h : s.record slot = some r) (d : Direction) :
    s.Orderly (s.handOver slot r d) :=
  (State.aimedAt_orderly h d).trans <|
    ((State.offerIntent_sound _ r d.sd).trans (State.moveAxes_sound _ ⟨d.hz, d.v⟩)).toOrderly

/-- The hand-over in a part without an aim makes the record the one ACTIVE and aimed at (R68, R76). -/
theorem State.Unaimed.handOver {s : State} (h : s.Unaimed) {slot : Nat} {r : TargetRecord} (hr : s.record slot = some r)
    (d : Direction) : (s.handOver slot r d).Aimed :=
  ((State.offerIntent_sound _ r d.sd).trans (State.moveAxes_sound _ ⟨d.hz, d.v⟩)).aimed (h.aimedAt hr d)

/-- What a part of a selection keeps: the laws of the tables, and, begun without an aim, that ACTIVE is aimed at. -/
structure State.Selects (s t : State) : Prop extends State.Orderly s t where
  aimed : s.Unaimed → t.Aimed

theorem State.Selects.of_handOver {s : State} {slot : Nat} {r : TargetRecord} (h : s.record slot = some r)
    (d : Direction) : s.Selects (s.handOver slot r d) :=
  ⟨State.handOver_orderly h d, fun hu => hu.handOver h d⟩

/-- A selection may follow a change of the tables that leaves the engine and the ACTIVE records. -/
theorem State.Selects.after {s t u : State} (h : s.Descends t) (he : t.engine = s.engine)
    (ha : SameActive s.table t.table) (h' : t.Selects u) : s.Selects u :=
  ⟨h.orderly.trans h'.toOrderly, fun hs => h'.aimed (hs.of_sameAim (.of_engine he) ha)⟩

theorem State.Selects.refl (s : State) : s.Selects s := ⟨.refl s, State.Unaimed.aimed⟩

theorem State.ordinaryPass_selects : s.Selects s.ordinaryPass := by
  refine .after (t := { s with table := s.lookedTable 0 s.table }) (.of_table s.looked_follows) rfl s.looked_sameActive ?_
  unfold State.ordinaryPass
  dsimp only
  split
  · rename_i c hc
    obtain ⟨k, hslot, hrec⟩ := s.lookedCandidates_mem (firstCandidate_mem hc)
    rw [Nat.zero_add] at hslot
    exact .of_handOver (State.record_of_table (hslot ▸ hrec)) c.direction
  · exact .refl _

theorem State.dropForced_selects : s.Selects s.dropForced.ordinaryPass :=
  .after (t := s.dropForced) (State.Calm.descends .beside) rfl (.of_eq rfl) (State.ordinaryPass_selects _)

theorem State.forcedIdle_selects {s : State} {i : Nat} {r : TargetRecord} (h : s.record i = some r) :
    s.Selects (s.forcedIdle i r) := by
  unfold State.forcedIdle
  split
  · rename_i d _
    exact .after (t := { s with forced := none }) (State.Calm.descends .beside) rfl (.of_eq rfl)
      (State.Selects.of_handOver (s := { s with forced := none }) h d)
  · exact s.dropForced_selects

theorem State.selection_selects : s.Selects s.selection := by
  unfold State.selection
  split
  · exact s.ordinaryPass_selects
  · split
    · exact s.dropForced_selects
    · rename_i i _
      split
      · exact s.dropForced_selects
      · rename_i r hr
        split
        · exact s.ordinaryPass_selects
        · rename_i hd
          split
          · have ht := State.record_eq_some hr
            refine .after (State.setRecord_descends hr r.returnIdle_follows) rfl
              (.set ht fun p => by simp [hd, TargetRecord.returnIdle]) (State.forcedIdle_selects ?_)
            obtain ⟨hlt, -⟩ := List.getElem?_eq_some_iff.mp ht
            exact State.record_of_table (List.getElem?_set_self hlt)
          · exact s.ordinaryPass_selects
        · exact State.forcedIdle_selects hr

/-- A selection is made in WAITING, where there is no aim (R57). -/
theorem State.select_sound : s.Sound s.select := by
  rcases s.select_cases with ⟨hw, -, he⟩ | he
  · rw [he]
    exact ⟨s.selection_selects.toOrderly, fun h => s.selection_selects.aimed (h.unaimed (by rw [hw]; rfl))⟩
  · rw [he]
    exact .refl s

/-! ### Aims that end -/

theorem State.enterWaiting_orderly : s.Orderly s.enterWaiting :=
  (s.enter_calm .waiting).descends.orderly.trans (State.select_sound _).toOrderly

theorem State.Unaimed.enterWaiting {s : State} (h : s.Unaimed) : s.enterWaiting.Aimed :=
  (State.select_sound _).aimed (h.enter .waiting).aimed

theorem State.endAim_sound (o : AimOutcome) (defer : Option Nat) : s.Sound (s.endAim o defer) :=
  ⟨(s.finishAim_orderly o defer).trans (State.enterWaiting_orderly _), fun h => (h.finishAim o defer).enterWaiting⟩

theorem State.stopAim_sound (o : AimOutcome) : s.Sound (s.stopAim o) :=
  ⟨(s.finishAim_orderly o none).trans (State.enter_calm _ .stopped).descends.orderly,
    fun h => ((h.finishAim o none).enter .stopped).aimed⟩

theorem State.enter_stopped_sound {s : State} (h : s.engine.state = .waiting) : s.Sound (s.enter .stopped) :=
  s.enter_sound .stopped (.inr (by rw [h]; rfl))

theorem State.engineFault_sound (ax : Axis) : s.Sound (s.engineFault ax) := by
  unfold State.engineFault
  split
  · exact .refl s
  · exact State.enter_stopped_sound ‹_›
  · exact s.stopAim_sound .faulted
  · exact (s.closeObservation_sound none true).trans <|
      (State.onDrive_sound _ (otherAxis ax) _).trans (State.stopAim_sound _ .faulted)

theorem State.faultDrive_sound (ax : Axis) (code : FaultCode) : s.Sound (s.faultDrive ax code) :=
  .ite (fun _ => .refl s) fun _ =>
    (s.onDrive_sound ax _).trans <| (State.raise_sound _ .axisFault).trans (State.engineFault_sound _ ax)

/-! ### Attempts, search positions and the slew -/

theorem State.endAttempt_sound (lost : Bool) : s.Sound (s.endAttempt lost) := by
  unfold State.endAttempt
  split
  · exact .refl s
  · split
    · exact s.endAim_sound .missed none
    · exact .moveAxes (.enter (.onAim (.refl s) fun _ => rfl) rfl)

theorem State.searchAt_sound (index : Nat) : s.Sound (s.searchAt index) := by
  unfold State.searchAt
  split
  · exact .refl s
  · exact .moveAxes (.enter (.onAim (.refl s) fun _ => rfl) rfl)

theorem State.Sound.searchAt {s t : State} {index : Nat} (h : s.Sound t) : s.Sound (t.searchAt index) :=
  h.trans (t.searchAt_sound index)

theorem State.countWindow_sound : s.Sound s.countWindow := by
  unfold State.countWindow
  split
  · exact .refl s
  · have hcounted := s.onAim_sound (f := fun x => { x with dwellCount := x.dwellCount + 1 }) fun _ => rfl
    have hended := hcounted.trans (State.endAttempt_sound _ false)
    exact .ite
      (fun _ => .ite (fun _ => hcounted) fun _ => .ite (fun _ => hended) fun _ => hcounted.searchAt)
      fun _ => .ite (fun _ => hcounted) fun _ => .ite (fun _ => hended) fun _ => hcounted.searchAt

theorem State.enterAcquiring_sound : s.Sound s.enterAcquiring :=
  .enter (.onAim (.refl s) fun _ => rfl) rfl

theorem State.slewEnd_sound : s.Sound s.slewEnd := by
  unfold State.slewEnd
  split
  · exact .refl s
  · split
    · exact s.enterAcquiring_sound
    · rename_i r d _
      have hfresh := s.onAim_sound (f := fun x => { x with
        centreSd := d.sd, width := r.widthAt s.clock d.sd, rings := ringCount (r.widthAt s.clock d.sd) }) fun _ => rfl
      exact .ite (fun _ => .moveAxes (.onAim hfresh fun _ => rfl)) fun _ => hfresh.trans (State.enterAcquiring_sound _)

theorem State.takeArrived_sound (ax : Axis) : s.Sound (s.takeArrived ax) := by
  unfold State.takeArrived
  split
  · exact .refl s
  · have harrived := s.onAim_sound (f := fun x => match ax with
      | .hz => { x with awaitHz := false }
      | .vt => { x with awaitVt := false }) fun _ => by cases ax <;> rfl
    refine .ite (fun _ => .refl s) fun _ => .ite (fun _ => .refl s) fun _ => .ite (fun _ => harrived) fun _ => ?_
    exact .ite (fun _ => harrived.trans (State.slewEnd_sound _)) fun _ => harrived.trans (State.beginDwell_sound _)

/-! ### Lock and windows -/

theorem State.lock_sound (x : Angles) : s.Sound (s.lock x) := by
  unfold State.lock
  split
  · exact .refl s
  · have hlocked := (s.openObservation_sound .lock x).trans <|
      State.onAim_sound _ (f := fun a => { a.clearCounters with lastLock := some s.clock }) fun _ => rfl
    exact .ite (fun _ => .enter (.onAim hlocked fun _ => rfl) rfl) fun _ => .enter (.onAim hlocked fun _ => rfl) rfl

theorem State.wrongPrism_sound (w : WindowReport) : s.Sound (s.wrongPrism w) := by
  unfold State.wrongPrism
  split
  · exact (s.chanceObservation_sound _ _).trans (State.endAttempt_sound _ false)
  · exact s.endAttempt_sound false

theorem State.centringOwn_sound (w : WindowReport) : s.Sound (s.centringOwn w) := by
  unfold State.centringOwn
  split
  · exact .refl s
  · rename_i a _
    have hadjusted := (s.adjustAxes_sound w.angles).trans <| State.onAim_sound _ (f := fun x => { x with
      codeSeen := x.codeSeen || w.code.isSome, nonOwn := 0, mixed := 0
      inTolerance := if w.inTolerance then a.inTolerance + 1 else 0 }) fun _ => rfl
    exact .ite (fun _ => hadjusted.trans (State.lock_sound _ _)) fun _ => hadjusted

theorem State.searchWindow_sound (a : Aim) (w : WindowReport) : s.Sound (s.searchWindow a w) :=
  .ite
    (fun _ => .ite (fun _ => s.wrongPrism_sound w) fun _ =>
      (State.Sound.enter (.onAim (f := Aim.clearMarks) (.refl s) fun _ => rfl) rfl).trans (State.centringOwn_sound _ w))
    fun _ => s.countWindow_sound

theorem State.centringWindow_sound (a : Aim) (w : WindowReport) : s.Sound (s.centringWindow a w) := by
  have hmixed := s.onAim_sound (f := fun x => { x with inTolerance := 0, mixed := x.mixed + 1 }) fun _ => rfl
  have hother := s.onAim_sound (f := fun x => { x with inTolerance := 0, mixed := 0, nonOwn := x.nonOwn + 1 }) fun _ => rfl
  have hlost := Sound.ite (c := 3 ≤ a.nonOwn + 1) (fun _ => hother.trans (State.endAttempt_sound _ true)) fun _ => hother
  unfold State.centringWindow
  split
  · exact .ite (fun _ => s.wrongPrism_sound w) fun _ => s.centringOwn_sound w
  · exact .ite (fun _ => hmixed.trans (State.endAim_sound _ .yielded _)) fun _ =>
      .ite (fun _ => hmixed.trans (State.endAttempt_sound _ false)) fun _ => hmixed
  all_goals exact hlost

theorem State.rangingWindow_sound (a : Aim) (w : WindowReport) : s.Sound (s.rangingWindow a w) :=
  .ite (fun _ => s.adjustAxes_sound w.angles) fun _ => .refl s

theorem State.trackingWindow_sound (a : Aim) (w : WindowReport) : s.Sound (s.trackingWindow a w) := by
  have hmixed := s.onAim_sound (f := fun x => { x with mixed := x.mixed + 1 }) fun _ => rfl
  have hother := s.onAim_sound (f := fun x => { x with mixed := 0, nonOwn := x.nonOwn + 1 }) fun _ => rfl
  exact .ite (fun _ => .onAim (s.adjustAxes_sound w.angles) fun _ => rfl) fun _ =>
    .ite (fun _ => .ite (fun _ => hmixed.trans (State.endAim_sound _ .yielded _)) fun _ => hmixed) fun _ =>
      .ite (fun _ => hother.trans (State.endAim_sound _ .trackLost none)) fun _ => hother

theorem State.takeWindow_sound (w : WindowReport) : s.Sound (s.takeWindow w) := by
  unfold State.takeWindow
  split
  · exact .refl s
  · rename_i a _
    split
    · exact s.searchWindow_sound a w
    · exact .ite (fun _ => s.searchWindow_sound a w) fun _ => .refl s
    · exact s.centringWindow_sound a w
    · exact s.rangingWindow_sound a w
    · exact s.trackingWindow_sound a w
    all_goals exact .refl s

end Sys2Proof.Machine

namespace Sys2Proof.Machine

open Sys2Proof

variable (s : State)

/-! ### Suspension and the site hold -/

theorem State.suspendAim_sound : s.Sound s.suspendAim := by
  unfold State.suspendAim
  split
  · have hcleared := Sound.onAim (s.closeObservation_sound none true)
      (f := fun a => { a.cancelTimers.clearCounters with abandonDeadline := some (s.clock + 10000) }) fun _ => rfl
    refine .enter (hcleared.trans (.of_calm .beside ⟨rfl, fun u hu => .inl ?_, id⟩)) rfl
    obtain ⟨a, ha, rfl⟩ := Option.map_eq_some_iff.mp hu
    rw [State.subject, ha]
    rfl
  · exact .refl s

/-- The suspend record discarded at the resumption (R103). -/
theorem State.dropSuspension_sound : s.Sound { s with engine := { s.engine with suspension := none } } :=
  .of_calm .beside ⟨rfl, fun _ hu => (by cases hu), id⟩

theorem State.resumeAim_sound (u : Suspension) (r : TargetRecord) (d : Direction) : s.Sound (s.resumeAim u r d) := by
  unfold State.resumeAim
  exact .ite (fun _ => .searchAt (.onAim s.dropSuspension_sound fun _ => rfl)) fun _ =>
    .moveAxes (.enter (.onAim s.dropSuspension_sound fun _ => rfl) rfl)

/-- The aim of a part that keeps the invariants is resumed or ended; it is never found without its record (R102). -/
theorem State.tryResume_sound : s.Sound s.tryResume := by
  unfold State.tryResume
  refine .ite (fun _ => ?_) fun _ => .refl s
  split
  · rename_i a u ha hu
    refine .ite (fun _ => s.endAim_sound .abandoned none) fun _ => ?_
    split
    · rename_i hlost
      refine ⟨(State.discardAim_calm s).descends.orderly.trans (State.enterWaiting_orderly _), fun h => ?_⟩
      obtain ⟨r, hr, -, hp⟩ := (h.active_iff a.slot a.prism).mpr (by rw [State.subject, ha]; rfl)
      have hprism : u.prism = a.prism := congrArg Prod.snd (h.suspended u a.subject hu (by rw [State.subject, ha]; rfl))
      rw [State.record_of_table hr] at hlost
      simp [hp, hprism] at hlost
    · split
      · exact s.resumeAim_sound u _ _
      · split
        · exact s.endAim_sound _ none
        · exact s.endAim_sound .abandoned none
  · exact .refl s

theorem State.holdBegins_sound : s.Sound s.holdBegins :=
  (s.raise_sound .holdChanged).trans <| (State.suspendAim_sound _).trans <|
    (State.onDrive_sound _ .hz _).trans (State.onDrive_sound _ .vt _)

theorem State.holdEnds_sound : s.Sound s.holdEnds :=
  (s.raise_sound .holdChanged).trans <| (State.onDrive_sound _ .hz _).trans <| (State.onDrive_sound _ .vt _).trans <|
    (State.select_sound _).trans (State.tryResume_sound _)

theorem State.signalHold_sound (before : Bool) : s.Sound (s.signalHold before) := by
  rcases s.signalHold_cases before with ⟨-, -, he⟩ | ⟨-, -, he⟩ | ⟨-, he⟩ <;> rw [he]
  · exact s.holdBegins_sound
  · exact s.holdEnds_sound
  · exact .refl s

theorem State.withHold_sound {change : State → State} (h : s.Sound (change s)) : s.Sound (s.withHold change) :=
  h.trans (State.signalHold_sound _ _)

theorem State.requestBreak_sound : s.Sound s.requestBreak := by
  unfold State.requestBreak
  split
  · exact .refl s
  · exact .beside

theorem State.holdInRises_sound : s.Sound s.holdInRises :=
  .trans (s.withHold_sound .beside) (State.requestBreak_sound _)

theorem State.settled_sound (ax : Axis) : s.Sound (s.settled ax) := by
  have hmarked : s.Sound { s with axesReadyRaised := true } := .beside
  exact .ite
    (fun _ => .after (State.tryResume_sound _)
      (.ite (fun _ => hmarked.trans (State.raise_sound _ .axesReady)) fun _ => .refl s))
    fun _ => .refl s

/-! ### The site line -/

/-- A change of the line that adds no frame to its queue. -/
theorem State.line_sound {l : SiteLine} (h : l.queue.Sublist s.line.queue) : s.Sound { s with line := l } :=
  .of_calm_engine ⟨rfl, rfl, rfl, le_rfl, h, rfl⟩ rfl

theorem State.tookChoice_sound : s.Sound s.tookChoice := .beside

theorem State.atMarkFrom_sound (t : Nat) : s.Sound (s.atMarkFrom t) := by
  rw [State.atMarkFrom_eq]
  exact s.line_sound (.refl _)

theorem State.Sound.atMarkFrom {s t : State} {n : Nat} (h : s.Sound t) : s.Sound (t.atMarkFrom n) :=
  h.trans (t.atMarkFrom_sound n)

theorem State.endCharacter_sound (c : LineChar) : s.Sound (s.endCharacter c) := by
  cases c with
  | framingError => exact .ite (fun _ => .refl s) fun _ => (s.atMarkFrom_sound _).trans (State.tookChoice_sound _)
  | marked v => exact s.atMarkFrom_sound _
  | unmarked v => exact s.atMarkFrom_sound _

theorem SiteLine.takeMarked_queue (starts : Bool) (c : Byte) (l : SiteLine) : (l.takeMarked starts c).queue = l.queue := by
  cases starts <;> rfl

theorem State.receive_queue (c : LineChar) : (s.receive c).line.queue = s.line.queue := by
  unfold State.receive
  dsimp only
  split
  · rfl
  · split <;> rfl
  · rfl
  · exact SiteLine.takeMarked_queue _ _ _
  · rfl

theorem State.receive_sound (c : LineChar) : s.Sound (s.receive c) :=
  .beside (.beside (queue := s.receive_queue c))

theorem State.takeEcho_sound (out : Sending) (c : LineChar) : s.Sound (s.takeEcho out c) :=
  .ite
    (fun _ => .ite (fun _ => .atMarkFrom (s.line_sound (.refl _))) fun _ => .atMarkFrom (s.line_sound (.refl _)))
    fun _ => (s.endCharacter_sound c).trans (State.line_sound _ (.refl _))

theorem State.lineCharacter_sound (c : LineChar) : s.Sound (s.lineCharacter c) := by
  unfold State.lineCharacter
  split
  · exact s.takeEcho_sound _ c
  · exact (s.endCharacter_sound c).trans (State.receive_sound _ c)

theorem State.beginSend_sound : s.Sound s.beginSend := by
  unfold State.beginSend
  split
  · rename_i f rest _ hq
    exact s.line_sound (hq ▸ List.sublist_cons_self f rest)
  · exact s.line_sound (.refl _)

theorem State.releaseBreak_sound : s.Sound s.releaseBreak := by
  rcases s.releaseBreak_cases with ⟨-, he⟩ | ⟨-, -, he⟩ | ⟨-, -, he⟩ <;> rw [he] <;>
    exact .beside

theorem State.forceListenOnly_sound : s.Sound s.forceListenOnly := by
  unfold State.forceListenOnly
  dsimp only
  split <;> exact s.line_sound (List.nil_sublist _)

/-! ### The peers -/

/-- The peer table changed without a change of its size. -/
theorem State.onPeers_sound {f : List (Option Peer) → List (Option Peer)}
    (h : (f s.peers.table).length = s.peers.table.length) : s.Sound (s.onPeers f) :=
  .of_calm_engine ⟨rfl, rfl, h, le_rfl, .refl _, rfl⟩ rfl

theorem State.hearPeer_sound (station now : Nat) (f : Peer → Peer) : s.Sound (s.onPeers (hearPeer station now f)) :=
  s.onPeers_sound List.length_set

theorem State.onPeer_sound (i : Nat) (f : Peer → Option Peer) : s.Sound (s.onPeer i f) :=
  s.onPeers_sound (List.length_modify ..)

theorem TargetRecord.takeDefer_follows (now t : Nat) (r : TargetRecord) :
    r.Follows (r.takeDefer now t) ∧ ((r.takeDefer now t).state = .active ↔ r.state = .active) := by
  unfold TargetRecord.takeDefer
  split
  · rename_i hs
    split
    · exact ⟨⟨rfl, rfl, rfl, id⟩, by simp [hs]⟩
    · exact ⟨.refl r, Iff.rfl⟩
  · exact ⟨⟨rfl, rfl, rfl, id⟩, Iff.rfl⟩
  · exact ⟨⟨rfl, rfl, rfl, id⟩, Iff.rfl⟩

theorem State.deferRequest_sound (prism t : Nat) : s.Sound (s.deferRequest prism t) := by
  unfold State.deferRequest
  split
  · exact .refl s
  · split
    · exact .refl s
    · rename_i r hr
      obtain ⟨hf, ha⟩ := r.takeDefer_follows s.clock t
      exact .ite (fun _ => s.endAim_sound .yielded _) fun _ =>
        (State.setRecord_sound hr hf ha).trans (State.select_sound _)

theorem TargetRecord.dueAfterPeerFix_follows (f : Fix) (r : TargetRecord) :
    r.Follows (r.dueAfterPeerFix f) ∧ (r.dueAfterPeerFix f).state = r.state := by
  unfold TargetRecord.dueAfterPeerFix
  split
  · exact ⟨⟨rfl, rfl, rfl, id⟩, rfl⟩
  · exact ⟨.refl r, rfl⟩

theorem State.offerPeerFix_sound (station prism : Nat) (pos : Grid) (quality age : Nat) :
    s.Sound (s.offerPeerFix station prism pos quality age) := by
  unfold State.offerPeerFix
  split
  · exact .refl s
  · split
    · exact .refl s
    · rename_i r hr
      split
      · exact .refl s
      · rename_i f _
        split
        · exact .refl s
        · rename_i q hq
          obtain ⟨hf, hs⟩ := TargetRecord.takeFix_follows hq
          obtain ⟨hd, hds⟩ := q.dueAfterPeerFix_follows f
          exact (State.setRecord_sound hr (hf.trans hd) (by rw [hds, hs])).trans (State.select_sound _)

theorem State.compareIntent_sound (sender prism distance hold : Nat) :
    s.Sound (s.compareIntent sender prism distance hold) := by
  unfold State.compareIntent
  split
  · exact .refl s
  · exact .ite (fun _ => s.deferRequest_sound prism _) fun _ => .refl s

theorem State.takeFrame_sound (sender : Nat) (frame : Received) : s.Sound (s.takeFrame sender frame) := by
  cases frame with
  | presence run pos => exact s.hearPeer_sound ..
  | sighting prism pos quality age => exact (s.hearPeer_sound ..).trans (State.offerPeerFix_sound ..)
  | intent prism distance hold => exact (s.hearPeer_sound ..).trans (State.compareIntent_sound ..)

theorem State.clash_sound : s.Sound s.clash := by
  have hmarked : s.Sound { s with peers := { s.peers with clash := true } } := .beside
  exact hmarked.trans <| (State.raise_sound _ .stationClash).trans (State.forceListenOnly_sound _)

theorem State.endFrame_sound : s.Sound s.endFrame := by
  have hidle : s.Sound { s with line := { s.line with receiver := .idle, assembler := [] } } := s.line_sound (.refl _)
  unfold State.endFrame
  dsimp only
  split
  · exact hidle
  · split
    · exact hidle
    · exact hidle.trans (State.clash_sound _)
    · exact hidle.trans (State.takeFrame_sound _ _ _)

theorem State.offerPresence_sound : s.Sound s.offerPresence :=
  (s.offerFrame_sound _).trans .beside

/-! ### Every table and queue empty -/

/-- With the tables, the queues and the engine as either reset leaves them, all the laws hold. -/
theorem State.Sound.of_reset {s t : State} (ht : t.table = List.replicate 32 none)
    (hs : t.sectors = List.replicate 64 Sector.reset) (hp : t.peers.table = List.replicate 8 none)
    (ho : t.link.observations = []) (hq : t.line.queue = []) (hf : s.fine < finePerMs → t.fine < finePerMs)
    (he : t.engine = Engine.reset) : s.Sound t := by
  have hfree : ∀ (i : Nat) (r : TargetRecord), t.table[i]? ≠ some (some r) := by
    intro i r h
    rw [ht] at h
    exact absurd (List.mem_of_getElem? h) (by simp)
  refine ⟨⟨fun h => ?_, fun _ => ?_⟩, fun _ => State.Unaimed.aimed ⟨?_, ?_, ?_⟩⟩
  · exact ⟨by simp [ht], by simp [hs], by simp [hp], by simp [ho], by simp [hq], hf h.fine_small⟩
  · refine ⟨fun i j r q h => absurd h (hfree i r), fun i j r q h => absurd h (hfree i r), fun r h => ?_, ?_, ?_, ?_, ?_⟩
    · obtain ⟨i, hi⟩ := List.mem_iff_getElem?.mp h
      exact absurd hi (hfree i r)
    · simp [hs, Sector.reset]
    all_goals simp [hq]
  · rintro i p ⟨r, h, -⟩
    exact hfree i r h
  · rw [State.subject, he]; rfl
  · rw [he]; rfl

end Sys2Proof.Machine

namespace Sys2Proof.Machine

open Sys2Proof

variable (s : State)

/-! ### Target commands -/

/-- The prism that a slot found by its prism carries. -/
theorem State.slotOf_some {s : State} {prism i : Nat} (h : s.slotOf prism = some i) :
    ∃ r, s.table[i]? = some (some r) ∧ r.prism = prism := by
  obtain ⟨hlt, hc, -⟩ := List.findIdx?_eq_some_iff_getElem.mp h
  cases ho : s.table[i] with
  | none => rw [ho] at hc; cases hc
  | some r =>
    rw [ho] at hc
    exact ⟨r, by rw [List.getElem?_eq_getElem hlt, ho], by simpa [carries] using hc⟩

theorem State.slotOf_none_iff {s : State} {prism : Nat} :
    s.slotOf prism = none ↔ ∀ r : TargetRecord, some r ∈ s.table → r.prism ≠ prism := by
  refine ⟨fun h r hr => ?_, State.slotOf_unknown⟩
  have := (List.findIdx?_eq_none_iff.mp h) _ hr
  simpa [carries] using this

/-- The lowest FREE slot. -/
theorem findIdx?_isNone_eq_some_iff {table : List (Option TargetRecord)} {i : Nat} :
    table.findIdx? Option.isNone = some i ↔ table[i]? = some none ∧ ∀ j, j < i → table[j]? ≠ some none := by
  rw [List.findIdx?_eq_some_iff_getElem]
  constructor
  · rintro ⟨hlt, hn, hmin⟩
    refine ⟨by rw [List.getElem?_eq_getElem hlt]; simpa using hn, fun j hj hnone => ?_⟩
    have hjlt : j < table.length := hj.trans hlt
    rw [List.getElem?_eq_getElem hjlt] at hnone
    exact hmin j hj (by simpa using hnone)
  · rintro ⟨hn, hmin⟩
    obtain ⟨hlt, hnone⟩ := List.getElem?_eq_some_iff.mp hn
    refine ⟨hlt, by rw [hnone]; rfl, fun j hj => ?_⟩
    have := hmin j hj
    rw [List.getElem?_eq_getElem (hj.trans hlt)] at this
    simpa using this

theorem State.codeTaken_eq_false_iff {s : State} {cls : PrismClass} {blink : Nat} : s.codeTaken cls blink = false ↔
    (cls = .machine → ∀ r : TargetRecord, some r ∈ s.table → r.cls = .machine → r.blink ≠ some blink) := by
  unfold State.codeTaken
  rw [Bool.and_eq_false_iff, decide_eq_false_iff_not, List.any_eq_false, ← imp_iff_not_or]
  refine imp_congr_right fun _ => ⟨fun h r hr hc hb => ?_, fun h o ho => ?_⟩
  · exact h _ hr ((r.codeMatches_iff blink).mpr ⟨hc, hb⟩)
  · cases o with
    | none => simp [carriesCode]
    | some r =>
      intro hm
      obtain ⟨hc, hb⟩ := (r.codeMatches_iff blink).mp hm
      exact h r ho hc hb

/-- A record put in a FREE slot, of a new prism and with a new blink code, keeps the laws (R18, R22). -/
theorem State.setRecord_load_sound {s : State} {i : Nat} {r : TargetRecord} (hfree : s.table[i]? = some none)
    (hprism : ∀ q : TargetRecord, some q ∈ s.table → q.prism ≠ r.prism)
    (hcode : r.cls = .machine → ∀ q : TargetRecord, some q ∈ s.table → q.cls = .machine → q.blink ≠ r.blink)
    (hm : r.misses ≤ 4) (hs : r.state ≠ .active) : s.Sound (s.setRecord i (some r)) := by
  have hslot : ∀ (j : Nat) (q : TargetRecord), (s.table.set i (some r))[j]? = some (some q) →
      j = i ∧ q = r ∨ j ≠ i ∧ s.table[j]? = some (some q) := by
    intro j q hq
    obtain ⟨hlt, -⟩ := List.getElem?_eq_some_iff.mp hfree
    by_cases hij : j = i
    · subst hij
      rw [List.getElem?_set_self hlt] at hq
      cases hq
      exact .inl ⟨rfl, rfl⟩
    · rw [List.getElem?_set_ne (Ne.symm hij)] at hq
      exact .inr ⟨hij, hq⟩
  refine ⟨⟨fun h => ?_, fun h => ?_⟩, fun h => h.of_sameAim (.of_engine rfl) (.set hfree fun p => by simp [hs])⟩
  · obtain ⟨h1, h2, h3, h4, h5, h6⟩ := h
    exact ⟨List.length_set.trans h1, h2, h3, h4, h5, h6⟩
  · obtain ⟨hprisms, hcodes, hmisses, hblocks, h1, h2, h3⟩ := h
    refine ⟨fun j k p q hp hq he => ?_, fun j k p q hp hq hcp hcq he => ?_, fun q hq => ?_, hblocks, h1, h2, h3⟩
    · rcases hslot j p hp with ⟨rfl, rfl⟩ | ⟨-, hp'⟩ <;> rcases hslot k q hq with ⟨rfl, rfl⟩ | ⟨-, hq'⟩
      · rfl
      · exact absurd he.symm (hprism q (List.mem_of_getElem? hq'))
      · exact absurd he (hprism p (List.mem_of_getElem? hp'))
      · exact hprisms j k p q hp' hq' he
    · rcases hslot j p hp with ⟨rfl, rfl⟩ | ⟨-, hp'⟩ <;> rcases hslot k q hq with ⟨rfl, rfl⟩ | ⟨-, hq'⟩
      · rfl
      · exact absurd he.symm (hcode hcp q (List.mem_of_getElem? hq') hcq)
      · exact absurd he (hcode hcq p (List.mem_of_getElem? hp') hcp)
      · exact hcodes j k p q hp' hq' hcp hcq he
    · obtain ⟨j, hj⟩ := List.mem_iff_getElem?.mp hq
      rcases hslot j q hj with ⟨-, rfl⟩ | ⟨-, hq'⟩
      · exact hm
      · exact hmisses q (List.mem_of_getElem? hq')

theorem loadTargetRule_sound (a : LoadArgs) : s.Sound (loadTargetRule a s).state := by
  unfold loadTargetRule
  split
  · exact .refl s
  · rename_i cls _
    split
    · exact .refl s
    · rename_i hnew
      split
      · exact .refl s
      · rename_i hcode
        split
        · exact .refl s
        · rename_i i hi
          have hload := State.setRecord_load_sound (r := loadedRecord s.clock cls a)
            (findIdx?_isNone_eq_some_iff.mp hi).1
            (State.slotOf_none_iff.mp (Option.not_isSome_iff_eq_none.mp hnew))
            (fun (hc : cls = .machine) q hq hqc => by
              rw [show (loadedRecord s.clock cls a).blink = some a.blink from if_pos hc]
              exact State.codeTaken_eq_false_iff.mp (by simpa using hcode) hc q hq hqc)
            (Nat.zero_le 4) (by simp [loadedRecord])
          exact hload.trans (State.select_sound _)

theorem editTargetRule_sound (a : EditArgs) : s.Sound (editTargetRule a s).state := by
  unfold editTargetRule
  split
  · exact .refl s
  · split
    · exact .refl s
    · rename_i i hi
      obtain ⟨r, hr, -⟩ := State.slotOf_some hi
      have hrec := State.record_of_table hr
      rw [hrec]
      exact (State.setRecord_sound hrec (q := r.edit a) ⟨rfl, rfl, rfl, id⟩ Iff.rfl).trans (State.select_sound _)

/-- A closing caused by a retirement gives the observation to the queue and no fix to the record (R99). -/
theorem State.closeObservation_unfixed (s : State) : s.closeObservation none false = { s with
    engine := { s.engine with openObs := none }
    link := (s.closeObservation none false).link } := by
  unfold State.closeObservation
  cases h : s.engine.openObs with
  | none => dsimp only; rw [← h]
  | some o =>
    simp only [Bool.false_eq_true, if_false, Option.isSome_none]
    rw [State.giveObservation_frame]
    rfl

/-- The state from which a retirement goes on to a selection (R99): the record freed, no aim, the engine WAITING. -/
def State.retired (i : Nat) (s : State) : State := ((s.setRecord i none).discardAim).enter .waiting

/-- A suspended aim has no observation to close and no axis to stop (R99). -/
theorem State.retireAim_suspended {s : State} (h : s.engine.state = .suspended) (i : Nat) :
    s.retireAim i = (s.retired i).select := by
  unfold State.retireAim
  rw [if_pos h]
  rfl

theorem State.retireAim_running {s : State} (h : s.engine.state ≠ .suspended) (i : Nat) :
    s.retireAim i = (((s.closeObservation none false).stopAxes).retired i).select := by
  unfold State.retireAim
  rw [if_neg h]
  rfl

/-- The retirement of the ACTIVE record leaves the slot FREE and no aim, from which a selection is made (R99). -/
theorem State.retired_select_sound {i p : Nat} (hi : ActiveAt s.table i p) : s.Sound (s.retired i).select := by
  refine ⟨?_, fun h => ?_⟩
  · exact (State.Descends.of_table (.free s.table i)).orderly.trans <|
      (State.discardAim_calm _).descends.orderly.trans (State.enterWaiting_orderly _)
  · obtain ⟨a, ha, hx⟩ := Option.map_eq_some_iff.mp ((h.active_iff i p).mp hi)
    have hslot : a.slot = i := congrArg Prod.fst hx
    refine State.Unaimed.enterWaiting ⟨?_, rfl, rfl⟩
    exact hslot ▸ h.none_active_set ha fun _ hn => by cases hn

theorem State.retireAim_sound {i p : Nat} (hi : ActiveAt s.table i p) : s.Sound (s.retireAim i) := by
  by_cases hs : s.engine.state = .suspended
  · rw [State.retireAim_suspended hs]
    exact s.retired_select_sound hi
  · rw [State.retireAim_running hs]
    have htable : ((s.closeObservation none false).stopAxes).table = s.table := by
      rw [State.stopAxes_table, State.closeObservation_unfixed]
    exact (s.closeObservation_sound none false).trans <|
      (State.stopAxes_sound _).trans (State.retired_select_sound _ (by rw [htable]; exact hi))

theorem retireTargetRule_sound (prism : Nat) : s.Sound (retireTargetRule prism s).state := by
  unfold retireTargetRule
  split
  · exact .refl s
  · split
    · exact .refl s
    · rename_i i hi
      obtain ⟨r, hr, -⟩ := State.slotOf_some hi
      rw [State.record_of_table hr]
      split
      · rename_i hactive
        exact s.retireAim_sound ⟨r, hr, by simpa using hactive.1, rfl⟩
      · rename_i hactive
        refine ⟨(State.Descends.of_table (.free s.table i)).orderly, fun h => ?_⟩
        have hidle : r.state ≠ .active := by
          intro hs
          have haimed := (h.active_iff i r.prism).mp ⟨r, hr, hs, rfl⟩
          refine hactive ⟨congrArg some hs, ?_⟩
          by_contra hno
          rw [(h.idle (by simpa using hno)).1] at haimed
          cases haimed
        exact h.of_sameAim (.of_engine rfl) (.set hr fun p => by simp [hidle])

/-! ### The other host commands -/

/-- Every way a host command is taken keeps the invariants where its own rule does. -/
theorem State.takeCommand_sound {α : Type} {c : CommandCode} {args : Option α} {rule : α → State → Taken}
    (h : ∀ a, s.Sound (rule a s).state) : s.Sound (s.takeCommand c args rule) := by
  rcases s.takeCommand_cases c args rule with ⟨-, he⟩ | ⟨-, -, he⟩ | ⟨-, -, -, -, he⟩ | ⟨a, -, -, -, he⟩ <;> rw [he]
  · exact s.respond_sound _ _
  · exact s.respond_sound _ _
  · exact s.respond_sound _ _
  · exact (h a).trans (State.respond_sound _ _ _)

theorem configureRule_sound (a : ConfigureArgs) : s.Sound (configureRule a s).state := by
  unfold configureRule
  split
  · exact .refl s
  · split
    · exact .refl s
    · exact .after (State.offerPresence_sound _) .beside

theorem TargetRecord.clearFixes_follows (r : TargetRecord) : r.Follows r.clearFixes := ⟨rfl, rfl, rfl, id⟩

/-- The fixes and velocities of all records cleared (R7). -/
theorem State.clearFixes_sound (setup : Setup) :
    s.Sound { s with setup := some setup, table := s.table.map (Option.map TargetRecord.clearFixes) } := by
  refine State.Descends.sound ⟨⟨List.length_map _, fun i q hq => ?_⟩, rfl, id, rfl, id, .refl _, id⟩ (.of_engine rfl)
    fun i p => ?_
  · rw [List.getElem?_map] at hq
    obtain ⟨o, ho, hoq⟩ := Option.map_eq_some_iff.mp hq
    obtain ⟨r, rfl, rfl⟩ := Option.map_eq_some_iff.mp hoq
    exact ⟨r, ho, r.clearFixes_follows⟩
  · unfold ActiveAt
    dsimp only
    rw [List.getElem?_map]
    constructor
    · rintro ⟨q, hq, hs, rfl⟩
      obtain ⟨o, ho, hoq⟩ := Option.map_eq_some_iff.mp hq
      obtain ⟨r, rfl, rfl⟩ := Option.map_eq_some_iff.mp hoq
      exact ⟨r, ho, hs, rfl⟩
    · rintro ⟨r, hr, hs, rfl⟩
      exact ⟨r.clearFixes, by rw [hr]; rfl, hs, rfl⟩

theorem setStationRule_sound (a : StationArgs) : s.Sound (setStationRule a s).state := by
  unfold setStationRule
  split
  · exact .refl s
  · split
    · exact .refl s
    · exact s.clearFixes_sound _

theorem readTargetRule_state (slot : Nat) : (readTargetRule slot s).state = s := by
  unfold readTargetRule
  split
  · rfl
  · split <;> rfl

/-- The sectors rewritten, no block count above what it may be. -/
theorem State.sectors_sound {sectors : List Sector} (hl : sectors.length = s.sectors.length)
    (hb : (∀ e ∈ s.sectors, e.block ≤ 15) → ∀ e ∈ sectors, e.block ≤ 15) : s.Sound { s with sectors := sectors } :=
  State.Descends.sound ⟨.of_eq rfl, hl, hb, rfl, id, .refl _, id⟩ (.of_engine rfl) (.of_eq rfl)

theorem setSectorRule_sound (a : SectorArgs) : s.Sound (setSectorRule a s).state := by
  unfold setSectorRule
  split
  · exact .refl s
  · split
    · exact .refl s
    · split
      · exact .refl s
      · refine .trans (s.sectors_sound (List.length_mapIdx ..) fun h e he => ?_) (State.select_sound _)
        obtain ⟨i, hi, rfl⟩ := List.mem_mapIdx.mp he
        split
        · exact h s.sectors[i] (List.getElem_mem hi)
        · exact h s.sectors[i] (List.getElem_mem hi)

theorem readSectorRule_state (a : SectorRange) : (readSectorRule a s).state = s := by
  unfold readSectorRule
  split <;> rfl

theorem runRule_sound (u : Unit) : s.Sound (runRule u s).state := by
  unfold runRule
  split
  · rename_i hs
    split
    · exact (s.enter_sound .waiting (.inr (by rw [hs]; rfl))).trans (State.select_sound _)
    · exact .refl s
  · exact .refl s

theorem State.pauseEngine_sound : s.Sound s.pauseEngine := by
  unfold State.pauseEngine
  split
  · exact .refl s
  · exact State.enter_stopped_sound ‹_›
  · exact s.stopAim_sound .aborted
  · exact (s.closeObservation_sound none true).trans <|
      (State.stopAxes_sound _).trans (State.stopAim_sound _ .aborted)

theorem aimNowRule_sound (prism : Nat) : s.Sound (aimNowRule prism s).state := by
  unfold aimNowRule
  split
  · exact .refl s
  · split
    · exact .refl s
    · split
      · exact .refl s
      · split
        · exact .refl s
        · exact .after (State.select_sound _) .beside

theorem rangeRule_sound (a : RangeArgs) : s.Sound (rangeRule a s).state := by
  have hclosed := s.closeObservation_sound (some a.distance) true
  unfold rangeRule
  split
  · exact .refl s
  · split
    · exact .ite (fun _ => hclosed.trans (State.endAim_sound _ .observed none)) fun _ => hclosed
    · exact .refl s

theorem takeObservationRule_state (u : Unit) : (takeObservationRule u s).state = s := by
  unfold takeObservationRule
  split <;> rfl

theorem State.clearFaultOf_sound (ax : Axis) : s.Sound (s.clearFaultOf ax) :=
  .ite (fun _ => (s.onDrive_sound ax _).trans (State.faultDrive_sound _ ax .overcurrent)) fun _ => s.onDrive_sound ax _

theorem clearFaultRule_sound (axis : Nat) : s.Sound (clearFaultRule axis s).state := by
  unfold clearFaultRule
  split
  · exact .refl s
  · rename_i h v _
    have hhz := State.Sound.ite (c := h = true) (fun _ => s.clearFaultOf_sound .hz) fun _ => .refl s
    exact .ite (fun _ => hhz.trans (State.clearFaultOf_sound _ .vt)) fun _ => hhz

theorem State.resetCommand_sound : s.Sound s.resetCommand := .of_reset rfl rfl rfl rfl rfl id rfl

theorem execPowerOnReset_sound (holdIn : Bool) {t : State} (h : execPowerOnReset holdIn s = .next t) : s.Sound t := by
  cases h
  have hreset : s.Sound { State.reset with
      hz := { Drive.reset with bridgeFault := s.hz.bridgeFault }
      vt := { Drive.reset with bridgeFault := s.vt.bridgeFault }
      choices := s.choices + 1
      pending := s.pending } := .of_reset rfl rfl rfl rfl rfl (fun _ => show 0 < finePerMs by decide) rfl
  exact .ite (fun _ => hreset.trans (State.holdInRises_sound _)) fun _ => hreset

theorem execResponseRead_sound (count : Nat) {t : State} (h : execResponseRead count s = .next t) : s.Sound t := by
  cases h
  split
  · exact .refl s
  · refine .ite (fun _ => .refl s) fun _ => .of_calm_engine ⟨rfl, rfl, rfl, ?_, .refl _, rfl⟩ rfl
    dsimp only
    split
    · rw [List.length_tail]; exact Nat.sub_le _ 1
    · exact le_rfl

end Sys2Proof.Machine

namespace Sys2Proof.Machine

open Sys2Proof
open Host (Outcome)

variable (s : State)

/-! ### What an outcome leaves -/

/-- Where the outcome is a next state, that state is sound. -/
def State.SoundNext (s : State) (o : Outcome State Fault Refusal) : Prop := ∀ t, o = .next t → s.Sound t

variable {s}

theorem State.Sound.next {t : State} (h : s.Sound t) : s.SoundNext (.next t) := by
  rintro u ⟨⟩
  exact h

theorem State.Sound.lit {t : State} (h : s.Sound t) : s.SoundNext (lit t) := (h.trans t.followLight_sound).next

variable (s)

/-! ### The timers of the tables and of the aim -/

theorem execDueTimeExpiry_sound (i : Nat) : s.SoundNext (execDueTimeExpiry i s) := by
  refine .next ?_
  split
  · exact .refl s
  · rename_i r hr
    exact .ite (fun _ => (State.setRecord_sound hr (q := { r with dueArmed := false }) ⟨rfl, rfl, rfl, id⟩ Iff.rfl).trans
      (State.select_sound _)) fun _ => .refl s

theorem execDeferUntilExpiry_sound (i : Nat) : s.SoundNext (execDeferUntilExpiry i s) := by
  refine .next ?_
  split
  · exact .refl s
  · rename_i r hr
    exact .ite (fun _ => (State.setRecord_sound hr (q := { r with deferArmed := false }) ⟨rfl, rfl, rfl, id⟩ Iff.rfl).trans
      (State.select_sound _)) fun _ => .refl s

theorem execBlockDecay_sound : s.SoundNext (execBlockDecay s) := by
  refine .next (.ite (fun _ => ?_) fun _ => .refl s)
  refine .after (t := { s with sectors := s.sectors.map fun e => { e with block := e.block - 1 } })
    .beside (s.sectors_sound (List.length_map _) fun h e he => ?_)
  obtain ⟨d, hd, rfl⟩ := List.mem_map.mp he
  exact (Nat.sub_le _ 1).trans (h d hd)

theorem State.takeSample_sound : s.Sound s.takeSample := by
  have hnext := s.onAim_sound (f := fun a => { a with nextSample := a.nextSample.map (· + 100) }) fun _ => rfl
  unfold State.takeSample
  dsimp only
  split
  · exact hnext
  · split
    · exact .onAim (hnext.trans <| (State.closeObservation_sound _ none true).trans (State.openObservation_sound _ _ _))
        fun _ => rfl
    · exact hnext

theorem State.endDwell_sound : s.Sound s.endDwell := by
  have hover := s.onAim_sound (f := fun a => { a with nextSample := none, dwellDeadline := none }) fun _ => rfl
  unfold State.endDwell
  dsimp only
  split
  · exact .enter (.onAim hover fun _ => rfl) rfl
  · exact hover.trans (State.endAim_sound _ .observed none)

/-! ### The axis drives and the windows -/

theorem State.readAxis_sound (ax : Axis) (raw : Int) : s.Sound (s.readAxis ax raw) := s.onDrive_sound ax _

theorem State.arrivals_sound (ax : Axis) : s.Sound (s.arrivals ax) :=
  .ite (fun _ => (s.onDrive_sound ax _).trans (State.takeArrived_sound _ ax)) fun _ =>
    .ite (fun _ => (s.onDrive_sound ax _).trans (State.takeArrived_sound _ ax)) fun _ => .refl s

theorem State.limitFault_sound (ax : Axis) : s.Sound (s.limitFault ax) :=
  (s.onDrive_sound ax _).trans (State.faultDrive_sound _ ax .limit)

theorem State.pairComplete_sound (ax : Axis) (mid : Int) : s.Sound (s.pairComplete ax mid) := by
  have hset : s.Sound { s.onDrive ax (Drive.setIndex ax mid s.clock) with axesReadyRaised := false } :=
    (s.onDrive_sound ax _).trans .beside
  exact .ite (fun _ => hset.trans (State.limitFault_sound _ ax)) fun _ => hset

theorem execIndexEdge_sound (ax : Axis) (rising : Bool) (raw rest : Int) :
    s.SoundNext (execIndexEdge ax rising raw rest s) := by
  have hread := s.readAxis_sound ax raw
  refine .lit (.ite (fun _ => .ite (fun _ => hread.trans (State.onDrive_sound _ ax _)) fun _ => hread) fun _ => ?_)
  split
  · exact hread.trans <| (State.readAxis_sound _ ax rest).trans (State.pairComplete_sound _ ax _)
  · exact hread

theorem execProgressIntervalEnd_sound (ax : Axis) (raw : Int) : s.SoundNext (execProgressIntervalEnd ax raw s) := by
  have hread := s.readAxis_sound ax raw
  refine .lit ?_
  split
  · exact hread
  · exact .ite (fun _ => hread.trans (State.faultDrive_sound _ ax .stall)) fun _ =>
      hread.trans (State.onDrive_sound _ ax _)

theorem State.endWindow_sound (w : Window) : s.Sound (s.endWindow w) := by
  unfold State.endWindow
  split
  · exact .after (State.takeWindow_sound _ _) .beside
  · exact .beside

theorem execWindowEnd_sound (hzRaw vtRaw : Int) : s.SoundNext (execWindowEnd hzRaw vtRaw s) := by
  have hread := (s.readAxis_sound .hz hzRaw).trans (State.readAxis_sound _ .vt vtRaw)
  refine .lit ?_
  split
  · exact .ite (fun _ => hread.trans (State.endWindow_sound _ _)) fun _ => hread
  · exact hread

theorem State.onWindow_sound (f : Window → Window) : s.Sound (s.onWindow f) := .beside

/-! ### Every command -/

/-- A rule that leaves the state as it is. -/
theorem State.Sound.of_eq {s t : State} (h : t = s) : s.Sound t := h ▸ .refl s

/-- Every command keeps the three invariants: the laws of the tables and queues, their sizes, and that the ACTIVE record is
the one aimed at. -/
theorem exec_sound (c : Instr) : s.SoundNext (exec c s) :=
  match c with
  | .powerOnReset holdIn => fun _ => execPowerOnReset_sound s holdIn
  | .configure _ => .lit (s.takeCommand_sound (configureRule_sound s))
  | .setStation _ => .lit (s.takeCommand_sound (setStationRule_sound s))
  | .loadTarget _ => .next (s.takeCommand_sound (loadTargetRule_sound s))
  | .editTarget _ => .next (s.takeCommand_sound (editTargetRule_sound s))
  | .retireTarget _ => .lit (s.takeCommand_sound (retireTargetRule_sound s))
  | .readTarget _ => .next (s.takeCommand_sound fun k => .of_eq (readTargetRule_state s k))
  | .setSector _ => .lit (s.takeCommand_sound (setSectorRule_sound s))
  | .readSector _ => .next (s.takeCommand_sound fun a => .of_eq (readSectorRule_state s a))
  | .run _ => .next (s.takeCommand_sound (runRule_sound s))
  | .pause _ => .lit (s.takeCommand_sound fun _ => s.pauseEngine_sound)
  | .aimNow _ => .next (s.takeCommand_sound (aimNowRule_sound s))
  | .range _ => .lit (s.takeCommand_sound (rangeRule_sound s))
  | .takeObservation _ => .next (s.takeCommand_sound fun u => .of_eq (takeObservationRule_state s u))
  | .readStatus _ => .next (s.takeCommand_sound fun _ => .refl s)
  | .readPeers _ => .next (s.takeCommand_sound fun _ => .refl s)
  | .ackEvents _ => .next (s.takeCommand_sound fun _ => .beside)
  | .clearFault _ => .lit (s.takeCommand_sound (clearFaultRule_sound s))
  | .siteHold _ => .next (s.takeCommand_sound fun _ => s.requestBreak_sound)
  | .reset _ => .next (s.takeCommand_sound fun _ => s.resetCommand_sound)
  | .unknownCommand _ => .next (s.respond_sound _ _)
  | .responseRead count => fun _ => execResponseRead_sound s count
  | .dueTimeExpiry i => execDueTimeExpiry_sound s i
  | .deferUntilExpiry i => execDeferUntilExpiry_sound s i
  | .arrived ax raw => .lit ((s.readAxis_sound ax raw).trans (State.arrivals_sound _ ax))
  | .fineArrival ax raw =>
    .lit (.ite (fun _ => (s.readAxis_sound ax raw).trans (State.onDrive_sound _ ax _)) fun _ => s.readAxis_sound ax raw)
  | .windowEnd hzRaw vtRaw => execWindowEnd_sound s hzRaw vtRaw
  | .trackSample => .next (.ite (fun _ => s.takeSample_sound) fun _ => .refl s)
  | .trackDwellExpiry => .lit (.ite (fun _ => s.endDwell_sound) fun _ => .refl s)
  | .rangingWaitExpiry => .lit (.ite (fun _ => s.endAim_sound .observed none) fun _ => .refl s)
  | .blockDecay => execBlockDecay_sound s
  | .abandonDeadlineExpiry => .lit (.ite (fun _ => s.endAim_sound .abandoned none) fun _ => .refl s)
  | .settleEnd ax raw =>
    .lit (.ite
      (fun _ => (s.readAxis_sound ax raw).trans <| (State.onDrive_sound _ ax _).trans (State.settled_sound _ ax))
      fun _ => s.readAxis_sound ax raw)
  | .indexEdge ax rising raw rest => execIndexEdge_sound s ax rising raw rest
  | .vtSeekReversal raw =>
    .lit (.ite (fun _ => (s.readAxis_sound .vt raw).trans (State.onDrive_sound _ .vt _)) fun _ => s.readAxis_sound .vt raw)
  | .seekTravelExhausted ax raw =>
    .lit (.ite (fun _ => (s.readAxis_sound ax raw).trans (State.faultDrive_sound _ ax .indexMissing))
      fun _ => s.readAxis_sound ax raw)
  | .progressIntervalEnd ax raw => execProgressIntervalEnd_sound s ax raw
  | .bridgeFaultInput ax asserted =>
    .lit (.ite (fun _ => (s.onDrive_sound ax fun d => { d with bridgeFault := asserted }).trans
      (State.faultDrive_sound _ ax .overcurrent)) fun _ => s.onDrive_sound ax _)
  | .vtLimitCrossing raw =>
    .lit (.ite (fun _ => (s.readAxis_sound .vt raw).trans (State.limitFault_sound _ .vt)) fun _ => s.readAxis_sound .vt raw)
  | .hzSectorCrossing raw => .lit (s.readAxis_sound .hz raw)
  | .returnPulse _ => .next (s.onWindow_sound _)
  | .identityCode _ _ => .next (s.onWindow_sound _)
  | .receiveCharacter char => .next (s.lineCharacter_sound char)
  | .frameEnd => .lit (.ite (fun _ => s.endFrame_sound) fun _ => .refl s)
  | .breakBegin => .lit (.ite (fun _ => .refl s) fun _ => s.withHold_sound (s.line_sound (.refl _)))
  | .breakEnd =>
    .lit (.ite (fun _ => s.withHold_sound .beside) fun _ => .refl s)
  | .accessGapExpiry => .next (.ite (fun _ => s.beginSend_sound) fun _ => .refl s)
  | .echoCharacter char => .next (s.lineCharacter_sound char)
  | .echoTimeout => .next (.ite (fun _ => s.line_sound (.refl _)) fun _ => .refl s)
  | .breakRelease => .next (.ite (fun _ => s.releaseBreak_sound) fun _ => .refl s)
  | .peerRecordExpiry i => .next (s.onPeer_sound i _)
  | .intentExpiry i => .next (s.onPeer_sound i _)
  | .presenceDeadline => .next (.ite (fun _ => s.offerPresence_sound) fun _ => .refl s)
  | .holdInRising => .lit (.ite (fun _ => .refl s) fun _ => s.holdInRises_sound)
  | .holdInFalling => .lit (.ite (fun _ => s.withHold_sound .beside) fun _ => .refl s)
  | .repeatDeadlineExpiry =>
    .next (.ite (fun _ => .after (State.requestBreak_sound _) .beside) fun _ => .refl s)
  | .holdDeadlineExpiry => .lit (.ite (fun _ => s.withHold_sound .beside) fun _ => .refl s)
  | .startBit => .next (.ite (fun _ => .refl s) fun _ => s.line_sound (.refl _))

/-! ### The step -/

theorem State.passTime_sound : s.Sound s.passTime :=
  State.Descends.sound ⟨.of_eq rfl, rfl, id, rfl, id, .refl _, fun _ => Nat.mod_lt _ (by decide)⟩ (.of_engine rfl)
    (.of_eq rfl)

theorem State.idle_sound : s.Sound s.idle := by
  unfold State.idle
  split
  · exact s.passTime_sound
  all_goals exact .beside

/-- Every step keeps the three invariants. -/
theorem step_sound : s.SoundNext (step s) := by
  unfold step
  split
  · exact s.idle_sound.next
  · rename_i c rest _
    exact fun t ht => .after (exec_sound { s with pending := rest } c t ht) .beside

/-- Settles O8: with the engine's records consistent, `ActiveMatches` gives `Aimed`, which every part of a step keeps. -/
theorem stepKeepsActiveRecord : Obligations.StepKeepsActiveRecord := fun s t hc ha hstep =>
  ((step_sound s t hstep).aimed (State.aimed_of_activeMatches hc ha)).activeMatches

/-- Settles O9: a step makes no record but by LOAD_TARGET, which tests the laws of R18, and adds to a queue by its own
rule. -/
theorem stepKeepsSizes : Obligations.StepKeepsSizes :=
  ⟨fun s t hs hstep => (step_sound s t hstep).sized hs, fun s t hl hstep => (step_sound s t hstep).lawful hl⟩

end Sys2Proof.Machine

namespace Sys2Proof.Machine

open Sys2Proof

/-! ### A host command of a part that is ready for it -/

/-- A command taken with the slot EMPTY by a configured part is answered by its own rule (R180). -/
theorem State.takeCommand_ready {α : Type} {s : State} (h : s.LinkReady) (c : CommandCode) (a : α)
    (rule : α → State → Taken) :
    s.takeCommand c (some a) rule = (rule a s).state.respond c.number (rule a s).answer :=
  s.takeCommand_accepted c a rule h.1 fun _ => h.2

/-! ### The value tests -/

theorem clampNat_eq {lo hi : Nat} (h : lo ≤ hi) (x : Nat) : clampNat lo hi x = max lo (min hi x) := by
  unfold clampNat
  split
  · omega
  · split <;> omega

/-- The interval a record holds (R24), in the words of the statements. -/
theorem holdInterval_eq (cls : PrismClass) (interval : Nat) : holdInterval cls interval = heldInterval cls interval := by
  cases cls <;> exact clampNat_eq (by decide) interval

theorem holdDwell_eq (cls : PrismClass) (dwell : Nat) :
    holdDwell cls dwell = if cls = .machine then some (min dwell 5000) else none := by
  cases cls <;> rfl

theorem prismInRange_iff (id : Nat) : prismInRange id = true ↔ 1 ≤ id ∧ id ≤ 250 := by simp [prismInRange]

theorem prismInRange_eq_false_iff (id : Nat) : prismInRange id = false ↔ id < 1 ∨ 250 < id := by
  rw [← Bool.not_eq_true, prismInRange_iff]
  omega

theorem nominalInRange_eq_false_iff (n : Option Grid) : nominalInRange n = false ↔
    ∃ g, n = some g ∧ (g.e < -10000000 ∨ 10000000 < g.e ∨ g.n < -10000000 ∨ 10000000 < g.n ∨
      g.h < -10000000 ∨ 10000000 < g.h) := by
  rw [← Bool.not_eq_true, nominalInRange_iff]
  cases n with
  | none => simp
  | some g =>
    simp only [Option.some.injEq, forall_eq', exists_eq_left']
    omega

theorem classOfCode_eq_some_iff {n : Nat} {cls : PrismClass} : classOfCode n = some cls ↔
    n = 1 ∧ cls = .machine ∨ n = 2 ∧ cls = .monitor ∨ n = 3 ∧ cls = .control := by
  unfold classOfCode
  split <;> simp_all [eq_comm]

/-- Test 1 of LOAD_TARGET (R22). -/
theorem loadClass_eq_some_iff {a : LoadArgs} {cls : PrismClass} : loadClass a = some cls ↔
    classOfCode a.cls = some cls ∧ prismInRange a.prism = true ∧ (cls = .machine → a.blink ≤ 63) ∧
      nominalInRange a.nominal = true := by
  unfold loadClass
  cases classOfCode a.cls with
  | none => simp
  | some c =>
    dsimp only
    split
    · rename_i h
      constructor
      · rintro ⟨⟩; exact ⟨rfl, h⟩
      · rintro ⟨hc, -⟩; exact hc
    · rename_i h
      constructor
      · rintro ⟨⟩
      · rintro ⟨⟨⟩, h'⟩; exact absurd h' h

/-! ### LOAD_TARGET -/

theorem exec_loadTarget_ready {s : State} (h : s.LinkReady) (a : LoadArgs) : exec (.loadTarget (some a)) s =
    .next ((loadTargetRule a s).state.respond 3 (loadTargetRule a s).answer) :=
  congrArg _ (State.takeCommand_ready h .loadTarget a loadTargetRule)

theorem loadTargetRule_badValue {a : LoadArgs} (h : loadClass a = none) (s : State) :
    loadTargetRule a s = s.refuse .badValue := by
  unfold loadTargetRule
  rw [h]

section LoadTarget

variable {s : State} {a : LoadArgs} {cls : PrismClass} (hc : loadClass a = some cls)
include hc

theorem loadTargetRule_duplicate (h : s.slotOf a.prism ≠ none) : loadTargetRule a s = s.refuse .duplicate := by
  unfold loadTargetRule
  rw [hc]
  exact if_pos (Option.isSome_iff_ne_none.mpr h)

variable (hnew : s.slotOf a.prism = none)
include hnew

theorem loadTargetRule_duplicateCode (h : s.codeTaken cls a.blink = true) :
    loadTargetRule a s = s.refuse .duplicateCode := by
  unfold loadTargetRule
  rw [hc, hnew]
  exact if_pos h

variable (hcode : s.codeTaken cls a.blink = false)
include hcode

theorem loadTargetRule_tableFull (h : s.table.findIdx? Option.isNone = none) :
    loadTargetRule a s = s.refuse .tableFull := by
  simp [loadTargetRule, hc, hnew, hcode, h]

theorem loadTargetRule_accepted {i : Nat} (h : s.table.findIdx? Option.isNone = some i) :
    loadTargetRule a s = ⟨.ok (.loaded i), (s.setRecord i (some (loadedRecord s.clock cls a))).select⟩ := by
  simp [loadTargetRule, hc, hnew, hcode, h]

end LoadTarget

/-- The record of an accepted LOAD_TARGET (R23, R24), in the words of the statements. -/
theorem loadedRecord_eq (now : Nat) (cls : PrismClass) (a : LoadArgs) : loadedRecord now cls a =
    { prism := a.prism, cls := cls, blink := if cls = PrismClass.machine then some a.blink else none, loadTime := now,
      nominal := a.nominal, fixA := none, fixB := none, velocity := none, interval := heldInterval cls a.interval,
      dwell := if cls = PrismClass.machine then some (min a.dwell 5000) else none, due := now, misses := 0, lost := false,
      state := .idle, deferUntil := none, lastOutcome := none, dueArmed := true, deferArmed := false } := by
  simp only [loadedRecord, holdInterval_eq, holdDwell_eq]

/-- Settles O26: every test of R22 passes, and the lowest FREE slot is the one that `findIdx?` finds. -/
theorem loadTargetFillsLowestSlot : Obligations.LoadTargetFillsLowestSlot := by
  intro a cls i s hready hlo hhi hcls hblink hgrid hnew hcode hfree hlowest
  have hnominal : nominalInRange a.nominal = true := by
    cases hn : a.nominal with
    | none => rfl
    | some g => exact hgrid g hn
  have hclass : loadClass a = some cls :=
    loadClass_eq_some_iff.mpr ⟨hcls, (prismInRange_iff a.prism).mpr ⟨hlo, hhi⟩, hblink, hnominal⟩
  rw [exec_loadTarget_ready hready,
    loadTargetRule_accepted hclass (State.slotOf_unknown hnew) (State.codeTaken_eq_false_iff.mpr hcode)
      (findIdx?_isNone_eq_some_iff.mpr ⟨hfree, hlowest⟩), loadedRecord_eq]
  rfl

/-- Settles O27: each test of R22 in turn, those before it passed. -/
theorem loadTargetRefusals : Obligations.LoadTargetRefusals := by
  intro a s hready
  rw [exec_loadTarget_ready hready]
  refine ⟨fun hbad => ?_, fun cls hlo hhi hcode hgrid => ?_⟩
  · have hnone : loadClass a = none := by
      rw [Option.eq_none_iff_forall_ne_some]
      intro cls hsome
      obtain ⟨hcls, hprism, hblink, hnominal⟩ := loadClass_eq_some_iff.mp hsome
      rw [classOfCode_eq_some_iff] at hcls
      rw [prismInRange_iff] at hprism
      rw [nominalInRange_iff] at hnominal
      rcases hbad with h | h | h | h | ⟨h, hb⟩ | ⟨g, hg, h⟩
      · omega
      · omega
      · omega
      · omega
      · have := hblink (by simpa [h] using hcls)
        omega
      · have := hnominal g hg
        omega
    rw [loadTargetRule_badValue hnone]
    rfl
  · have hclass : loadClass a = some cls := by
      refine loadClass_eq_some_iff.mpr ⟨classOfCode_eq_some_iff.mpr ?_, (prismInRange_iff a.prism).mpr ⟨hlo, hhi⟩, ?_,
        (nominalInRange_iff a.nominal).mpr hgrid⟩
      · rcases hcode with ⟨hn, hc, -⟩ | h
        · exact .inl ⟨hn, hc⟩
        · exact .inr h
      · rintro rfl
        have hmachine : a.cls = 1 ∧ a.blink ≤ 63 := by simpa using hcode
        exact hmachine.2
    refine ⟨fun r hr hp => ?duplicate, fun hnew =>
      ⟨fun r hm hr hrc hb => ?duplicateCode, fun hunused hfull => ?tableFull⟩⟩
    case duplicate =>
      rw [loadTargetRule_duplicate hclass fun hnone => State.slotOf_none_iff.mp hnone r hr hp]
      rfl
    case duplicateCode =>
      have htaken : s.codeTaken cls a.blink = true := by
        rw [← Bool.not_eq_false, State.codeTaken_eq_false_iff]
        exact fun h => h hm r hr hrc hb
      rw [loadTargetRule_duplicateCode hclass (State.slotOf_unknown hnew) htaken]
      rfl
    case tableFull =>
      have hnofree : s.table.findIdx? Option.isNone = none :=
        List.findIdx?_eq_none_iff.mpr fun o ho => by
          cases o with
          | none => exact absurd ho hfull
          | some r => rfl
      rw [loadTargetRule_tableFull hclass (State.slotOf_unknown hnew) (State.codeTaken_eq_false_iff.mpr hunused) hnofree]
      rfl

/-! ### EDIT_TARGET -/

theorem exec_editTarget_ready {s : State} (h : s.LinkReady) (a : EditArgs) : exec (.editTarget (some a)) s =
    .next ((editTargetRule a s).state.respond 4 (editTargetRule a s).answer) :=
  congrArg _ (State.takeCommand_ready h .editTarget a editTargetRule)

theorem editTargetRule_badValue {a : EditArgs} (h : prismInRange a.prism = false ∨ nominalInRange a.nominal = false)
    (s : State) : editTargetRule a s = s.refuse .badValue := if_pos h

section EditTarget

variable {s : State} {a : EditArgs} (hp : prismInRange a.prism = true) (hn : nominalInRange a.nominal = true)
include hp hn

theorem editTargetRule_unknownPrism (h : s.slotOf a.prism = none) : editTargetRule a s = s.refuse .unknownPrism := by
  simp [editTargetRule, hp, hn, h]

theorem editTargetRule_accepted {i : Nat} {r : TargetRecord} (h : s.Carries i r a.prism) :
    editTargetRule a s = ⟨.ok .none, (s.setRecord i (some (r.edit a))).select⟩ := by
  obtain ⟨hslot, hrec⟩ := State.slotOf_carries h
  simp [editTargetRule, hp, hn, hslot, hrec]

end EditTarget

/-- The record of an accepted EDIT_TARGET (R24, R25), in the words of the statements. -/
theorem TargetRecord.edit_eq (a : EditArgs) (r : TargetRecord) : r.edit a =
    { r with
      interval := heldInterval r.cls a.interval
      dwell := if r.cls = PrismClass.machine then some (min a.dwell 5000) else r.dwell
      nominal := a.nominal } := by
  unfold TargetRecord.edit
  rw [holdInterval_eq, holdDwell_eq]
  split <;> rfl

/-- Settles O28. -/
theorem editTargetRewrites : Obligations.EditTargetRewrites := by
  intro a s hready
  rw [exec_editTarget_ready hready]
  refine ⟨fun hbad => ?_, fun hlo hhi hgrid => ⟨fun hunknown => ?_, fun i r hcarries => ?_⟩⟩
  · rw [editTargetRule_badValue]
    · rfl
    · rw [prismInRange_eq_false_iff, nominalInRange_eq_false_iff, or_assoc]
      exact hbad
  all_goals
    have hprism : prismInRange a.prism = true := (prismInRange_iff a.prism).mpr ⟨hlo, hhi⟩
    have hnominal : nominalInRange a.nominal = true := (nominalInRange_iff a.nominal).mpr hgrid
  · rw [editTargetRule_unknownPrism hprism hnominal (State.slotOf_unknown hunknown)]
    rfl
  · rw [editTargetRule_accepted hprism hnominal hcarries, TargetRecord.edit_eq]
    rfl

/-! ### READ_TARGET -/

/-- Settles O13. -/
theorem readTargetReports : Obligations.ReadTargetReports := by
  intro k s hready
  have hexec : exec (.readTarget (some k)) s =
      .next ((readTargetRule k s).state.respond 6 (readTargetRule k s).answer) :=
    congrArg _ (State.takeCommand_ready hready .readTarget k readTargetRule)
  rw [hexec]
  refine ⟨fun hout => ?_, fun hle hfree => ?_, fun r hle hr => ?_⟩
  · rw [show readTargetRule k s = s.refuse .badValue from if_pos hout]
    rfl
  · rw [show readTargetRule k s = ⟨.ok (.freeSlot k), s⟩ by simp [readTargetRule, Nat.not_lt.mpr hle, hfree]]
    rfl
  · rw [show readTargetRule k s = ⟨.ok (.target ⟨k, r, r.prediction s.clock⟩), s⟩ by
      simp [readTargetRule, Nat.not_lt.mpr hle, hr]]
    rfl

/-! ### The expiries of a record -/

theorem State.record_eq_none_iff {s : State} {i : Nat} :
    s.record i = none ↔ ∀ r : TargetRecord, s.table[i]? ≠ some (some r) := by
  unfold State.record
  cases s.table[i]? with
  | none => simp
  | some o => cases o <;> simp

section Expiries

variable {s : State} {i : Nat}

theorem exec_dueTimeExpiry_free (h : s.record i = none) : exec (.dueTimeExpiry i) s = .next s := by
  simp [exec, execDueTimeExpiry, h]

theorem exec_deferUntilExpiry_free (h : s.record i = none) : exec (.deferUntilExpiry i) s = .next s := by
  simp [exec, execDeferUntilExpiry, h]

variable {r : TargetRecord} (h : s.record i = some r)
include h

theorem exec_dueTimeExpiry : exec (.dueTimeExpiry i) s = .next
    (if r.dueExpires s.clock then (s.setRecord i (some { r with dueArmed := false })).select else s) := by
  simp only [exec, execDueTimeExpiry, h]

theorem exec_deferUntilExpiry : exec (.deferUntilExpiry i) s = .next
    (if r.deferExpires s.clock then (s.setRecord i (some { r with deferArmed := false })).select else s) := by
  simp only [exec, execDeferUntilExpiry, h]

end Expiries

theorem TargetRecord.dueExpires_iff {now : Nat} {r : TargetRecord} :
    r.dueExpires now = true ↔ r.dueArmed = true ∧ r.due ≤ now := by simp [TargetRecord.dueExpires]

theorem TargetRecord.deferExpires_iff {now : Nat} {r : TargetRecord} :
    r.deferExpires now = true ↔ r.deferArmed = true ∧ ∃ d, r.deferUntil = some d ∧ d ≤ now := by
  unfold TargetRecord.deferExpires expired
  cases r.deferUntil <;> simp

/-- Settles O43. -/
theorem recordTimersSelect : Obligations.RecordTimersSelect := by
  intro i s
  refine ⟨fun r hr => ⟨fun harmed hdue => ?_, fun hnot => ?_, fun d harmed hd hle => ?_, fun hnot => ?_⟩, fun hfree => ?_⟩
  · rw [exec_dueTimeExpiry (State.record_of_table hr), if_pos (TargetRecord.dueExpires_iff.mpr ⟨harmed, hdue⟩)]
    rfl
  · rw [exec_dueTimeExpiry (State.record_of_table hr), if_neg]
    rw [TargetRecord.dueExpires_iff]
    rintro ⟨harmed, hdue⟩
    rcases hnot with h | h
    · rw [harmed] at h; cases h
    · omega
  · rw [exec_deferUntilExpiry (State.record_of_table hr), if_pos (TargetRecord.deferExpires_iff.mpr ⟨harmed, d, hd, hle⟩)]
    rfl
  · rw [exec_deferUntilExpiry (State.record_of_table hr), if_neg]
    rw [TargetRecord.deferExpires_iff]
    rintro ⟨harmed, d, hd, hle⟩
    rcases hnot with h | h
    · rw [harmed] at h; cases h
    · have := h d hd; omega
  · have hnone := State.record_eq_none_iff.mpr hfree
    exact ⟨exec_dueTimeExpiry_free hnone, exec_deferUntilExpiry_free hnone⟩

end Sys2Proof.Machine

namespace Sys2Proof.Machine

open Sys2Proof

/-! ### RETIRE_TARGET -/

theorem exec_retireTarget_ready {s : State} (h : s.LinkReady) (p : Nat) : exec (.retireTarget (some p)) s =
    .next ((retireTargetRule p s).state.respond 5 (retireTargetRule p s).answer).followLight :=
  congrArg lit (State.takeCommand_ready h .retireTarget p retireTargetRule)

theorem retireTargetRule_badValue {p : Nat} (h : prismInRange p = false) (s : State) :
    retireTargetRule p s = s.refuse .badValue := if_pos h

section RetireTarget

variable {s : State} {p : Nat} (hp : prismInRange p = true)
include hp

theorem retireTargetRule_unknownPrism (h : s.slotOf p = none) : retireTargetRule p s = s.refuse .unknownPrism := by
  simp [retireTargetRule, hp, h]

variable {i : Nat} {r : TargetRecord} (h : s.Carries i r p)
include h

theorem retireTargetRule_notActive (hr : r.state ≠ .active) : retireTargetRule p s = ⟨.ok .none, s.setRecord i none⟩ := by
  obtain ⟨hslot, hrec⟩ := State.slotOf_carries h
  simp [retireTargetRule, hp, hslot, hrec, hr]

theorem retireTargetRule_active (hr : r.state = .active) (he : s.engine.state.isAim = true) :
    retireTargetRule p s = ⟨.ok .none, s.retireAim i⟩ := by
  obtain ⟨hslot, hrec⟩ := State.slotOf_carries h
  simp [retireTargetRule, hp, hslot, hrec, hr, he]

end RetireTarget

/-- Settles O29: neither the table nor the command slot is a condition of R128, so that the emitter stays. -/
theorem retireFreesSlot : Obligations.RetireFreesSlot := by
  intro p s hready hlight
  rw [exec_retireTarget_ready hready]
  refine ⟨fun hbad => ?_, fun hlo hhi => ?_⟩
  · rw [retireTargetRule_badValue ((prismInRange_eq_false_iff p).mpr hbad)]
    exact congrArg _ (State.followLight_respond hlight _ _)
  · have hprism : prismInRange p = true := (prismInRange_iff p).mpr ⟨hlo, hhi⟩
    refine ⟨fun hunknown => ?_, fun i r hcarries hr => ?_⟩
    · rw [retireTargetRule_unknownPrism hprism (State.slotOf_unknown hunknown)]
      exact congrArg _ (State.followLight_respond hlight _ _)
    · rw [retireTargetRule_notActive hprism hcarries hr]
      exact congrArg _ (State.followLight_respond (s := s.setRecord i none) hlight _ _)

/-! ### RETIRE_TARGET of the ACTIVE record -/

/-- The engine WAITING: no window and no light. -/
theorem State.enter_waiting (s : State) : s.enter .waiting = { s with
    engine := { s.engine with state := .waiting, dwelling := false }
    light := { s.light with window := none, emitter := .off } } := by
  unfold State.enter State.dropWindow
  simp [EngineState.makesWindows, Engine.wantsLight]

/-- No selection is made while the hold is in force (R57). -/
theorem State.select_of_held {s : State} (h : s.held = true) : s.select = s := by simp [State.select, h]

theorem State.closeObservation_unfixed_link {s : State} {o : OpenObs} (h : s.engine.openObs = some o) :
    (s.closeObservation none false).link = (s.giveObservation ⟨o.seq, o.kind, o.prism, o.lockTime, o.hz, o.v,
      .angleOnly, none, observationGrid s.setup o.hz o.v o.heldSd, o.identified⟩).link := by
  unfold State.closeObservation
  rw [h]
  exact State.giveObservation_link_congr _ rfl

theorem State.retired_eq (i : Nat) {s : State} (h : s.engine.openObs = none) : s.retired i = { s with
    table := s.table.set i none
    engine := ⟨.waiting, none, none, none, s.engine.sequence, false⟩
    light := { s.light with window := none, emitter := .off } } := by
  unfold State.retired
  rw [State.enter_waiting]
  simp [State.discardAim, State.setRecord, h]

/-- Settles O30. -/
theorem retireDropsSuspendedAim : Obligations.RetireDropsSuspendedAim := by
  intro p i r s hready hlo hhi hcarries hr
  have hprism : prismInRange p = true := (prismInRange_iff p).mpr ⟨hlo, hhi⟩
  rw [exec_retireTarget_ready hready]
  refine ⟨fun hlight hcons hs hheld => ?suspended, fun hrun => ?running⟩
  case suspended =>
    have hnoObs : s.engine.openObs = none := by
      have hopen := hcons.open_only
      simpa [hs] using hopen
    have hnoWindow : s.light.window = none := by
      have hwindow := hcons.window_present
      simpa [hs, EngineState.makesWindows] using hwindow
    have hoff : s.light.emitter = .off := State.emitter_off_of_unlit hlight (by simp [Engine.wantsLight, hs])
    have hretired : s.retired i = { s with
        table := s.table.set i none, engine := ⟨.waiting, none, none, none, s.engine.sequence, false⟩ } := by
      rw [State.retired_eq i hnoObs, ← hnoWindow, ← hoff]
    have hselect : (s.retired i).select = s.retired i := State.select_of_held (by rw [hretired]; exact hheld)
    rw [retireTargetRule_active hprism hcarries hr (by rw [hs]; rfl), State.retireAim_suspended hs, hselect, hretired,
      State.followLight_unlit rfl, ← hoff]
    rfl
  case running =>
    obtain ⟨haim, hne⟩ : s.engine.state.isAim = true ∧ s.engine.state ≠ .suspended := by
      simpa [EngineState.isRunningAim] using hrun
    rw [retireTargetRule_active hprism hcarries hr haim, State.retireAim_running hne]
    refine ⟨_, rfl, ?_⟩
    rw [State.retired_eq i (by simp), State.stopAxes_eq, State.closeObservation_unfixed]
    refine ⟨rfl, Drive.stop_stopped .hz s.hz, Drive.stop_stopped .vt s.vt, fun hnone => ?_, fun o ho => ?_⟩
    · show (s.closeObservation none false).link = s.link
      unfold State.closeObservation
      rw [hnone]
    · exact State.closeObservation_unfixed_link ho

/-! ### The end of an aim -/

/-- TARGET_LOST is raised by the fourth miss (R39). -/
theorem raisesLost_eq (o : AimOutcome) (r : TargetRecord) :
    raisesLost o r = (decide (o = .missed) && decide (3 ≤ r.misses)) := by
  unfold raisesLost TargetRecord.missesAfter
  congr 1
  exact decide_eq_decide.mpr (by omega)

/-- The record and the mark that the outcome of an aim writes (R37, R39). -/
theorem State.writeOutcome_eq {s : State} {a : Aim} {r : TargetRecord} (h : s.record a.slot = some r) (o : AimOutcome)
    (defer : Option Nat) : s.writeOutcome o defer a = { s with
      table := s.table.set a.slot (some (r.endAim s.clock (a.lastLock.getD s.clock) a.ranged o defer))
      link := { s.link with events := { s.link.events with
        targetLost := s.link.events.targetLost || (decide (o = .missed) && decide (3 ≤ r.misses)) } } } := by
  unfold State.writeOutcome
  rw [h]
  dsimp only
  rw [raisesLost_eq]
  cases decide (o = .missed) && decide (3 ≤ r.misses)
  · simp [State.setRecord]
  · simp [State.setRecord, State.raise, setMark]

/-- The sectors after the end of the aim `a` (R52, R53). -/
theorem State.writeBlock_eq (o : AimOutcome) (a : Aim) (s : State) :
    s.writeBlock o a = { s with sectors := (s.writeBlock o a).sectors } := by
  unfold State.writeBlock
  split <;> rfl

theorem State.writeBlock_sector (o : AimOutcome) (a : Aim) {s : State} {k : Nat} (hk : k < s.sectors.length) :
    (s.writeBlock o a).sector k = { s.sector k with
      block := if a.sector = some k then blockAfter o (s.sector k).block else (s.sector k).block } := by
  unfold State.writeBlock State.changeBlock State.sector
  cases a.sector with
  | none => simp
  | some i => by_cases hik : i = k <;> simp [hk, hik]

/-- The block count after an outcome (R52), in the words of the statement. -/
theorem blockAfter_eq (o : AimOutcome) (c : Nat) :
    blockAfter o c = if o = .missed then min (c + 1) 15 else if o = .observed then c - 4 else c := by
  cases o <;> rfl

/-- The end of an aim on the record `r` (R95), from the state that the closing of its observation leaves. -/
theorem State.finishAim_eq {s : State} {a : Aim} {r : TargetRecord} (o : AimOutcome) (defer : Option Nat)
    (ha : s.engine.aim = some a) (hr : (s.closeObservation none true).record a.slot = some r) :
    s.finishAim o defer = { s.closeObservation none true with
      table := (s.closeObservation none true).table.set a.slot
        (some (r.endAim s.clock (a.lastLock.getD s.clock) a.ranged o defer))
      sectors := (s.writeBlock o a).sectors
      engine := { s.engine with openObs := none, aim := none, suspension := none }
      link := { (s.closeObservation none true).link with events := { (s.closeObservation none true).link.events with
        targetLost := (s.closeObservation none true).link.events.targetLost ||
          (decide (o = .missed) && decide (3 ≤ r.misses)) } } } := by
  have hengine : (s.closeObservation none true).engine = { s.engine with openObs := none } := by
    rw [State.closeObservation_none_frame]
  have hsectors : ∀ u : State, u.sectors = s.sectors → (u.writeBlock o a).sectors = (s.writeBlock o a).sectors := by
    intro u hu
    unfold State.writeBlock State.changeBlock
    cases a.sector <;> simp [hu]
  unfold State.finishAim
  dsimp only
  rw [hengine, ha]
  dsimp only
  rw [State.writeBlock_eq, hsectors _ (by simp), State.writeOutcome_eq hr, State.closeObservation_clock]
  unfold State.discardAim
  dsimp only
  rw [hengine]

/-- What each outcome writes of due time, misses and lost flag (R38 to R41). -/
structure TargetRecord.OutcomeApplied (now lock : Nat) (ranged : Bool) (o : AimOutcome) (r q : TargetRecord) : Prop where
  observed_ranged : o = .observed → ranged = true → q.due = lock + r.interval ∧ q.misses = 0 ∧ q.lost = false
  observed_unranged : o = .observed → ranged = false →
    q.due = lock + min r.interval 60000 ∧ q.misses = r.misses ∧ q.lost = r.lost
  missed_few : o = .missed → r.misses < 3 → q.misses = r.misses + 1 ∧ q.lost = r.lost ∧
    q.due = now + (if r.cls = PrismClass.machine then 1000 else 5000)
  missed_fourth : o = .missed → 3 ≤ r.misses → q.misses = 4 ∧ q.lost = true ∧
    q.due = now + (if r.cls = PrismClass.machine then 30000 else 600000)
  trackLost : o = .trackLost → q.due = now ∧ q.misses = r.misses ∧ q.lost = r.lost
  unreachable : ∀ why, o = .unreachable why → q.due = now + 10000 ∧ q.misses = r.misses ∧ q.lost = r.lost
  kept : o = .yielded ∨ o = .aborted ∨ o = .abandoned ∨ o = .faulted →
    q.due = r.due ∧ q.misses = r.misses ∧ q.lost = r.lost

theorem TargetRecord.applyOutcome_applied (now lock : Nat) (ranged : Bool) (o : AimOutcome) (r : TargetRecord) :
    TargetRecord.OutcomeApplied now lock ranged o r (r.applyOutcome now lock ranged o) := by
  have hretry : retryDelay r.cls = if r.cls = .machine then 1000 else 5000 := by cases r.cls <;> rfl
  have hinterval : lostInterval r.cls = if r.cls = .machine then 30000 else 600000 := by cases r.cls <;> rfl
  refine ⟨?_, ?_, ?_, ?_, ?_, ?_, ?_⟩
  · rintro rfl rfl
    exact ⟨rfl, rfl, rfl⟩
  · rintro rfl rfl
    exact ⟨rfl, rfl, rfl⟩
  · rintro rfl hfew
    have hafter : r.missesAfter = r.misses + 1 := by unfold TargetRecord.missesAfter; omega
    have hlt : r.misses + 1 < 4 := by omega
    simp [TargetRecord.applyOutcome, TargetRecord.setDue, hafter, hretry, hlt]
  · rintro rfl hmany
    have hafter : r.missesAfter = 4 := by unfold TargetRecord.missesAfter; omega
    simp [TargetRecord.applyOutcome, TargetRecord.setDue, hafter, hinterval]
  · rintro rfl
    exact ⟨rfl, rfl, rfl⟩
  · rintro why rfl
    exact ⟨rfl, rfl, rfl⟩
  · rintro (rfl | rfl | rfl | rfl) <;> exact ⟨rfl, rfl, rfl⟩

/-- The outcome decides due time, misses and lost flag by the fields that a fix leaves; the rest of the end of an aim does
not touch them. -/
theorem TargetRecord.endAim_applied (now lock : Nat) (ranged : Bool) (o : AimOutcome) (defer : Option Nat)
    {r p : TargetRecord} (hp : p = { r with fixA := p.fixA, fixB := p.fixB, velocity := p.velocity }) :
    TargetRecord.OutcomeApplied now lock ranged o r (p.endAim now lock ranged o defer) := by
  obtain ⟨hframe, -⟩ := TargetRecord.endAim_writes now lock ranged o defer p
  obtain ⟨h1, h2, h3, h4, h5, h6, h7⟩ := p.applyOutcome_applied now lock ranged o
  rw [hframe]
  rw [hp] at h1 h2 h3 h4 h5 h6 h7 ⊢
  exact ⟨h1, h2, h3, h4, h5, h6, h7⟩

/-- Settles O40: the end of the aim is that of `finishAim_eq`, the record written that of `endAim_writes` and
`endAim_applied`. -/
theorem aimEndWritesRecord : Obligations.AimEndWritesRecord := by
  intro o defer s a r _ _ ha hr
  obtain ⟨p, hp, hfields⟩ := State.closeObservation_record none s a.slot r hr
  have hend := State.finishAim_eq o defer ha (State.record_of_table hp)
  have hmisses : p.misses = r.misses := by rw [hfields]
  have hdefer : p.deferUntil = r.deferUntil := by rw [hfields]
  obtain ⟨hframe, hstate⟩ := TargetRecord.endAim_writes s.clock (a.lastLock.getD s.clock) a.ranged o defer p
  obtain ⟨h1, h2, h3, h4, h5, h6, h7⟩ :=
    TargetRecord.endAim_applied s.clock (a.lastLock.getD s.clock) a.ranged o defer hfields
  refine ⟨s.closeObservation none true, p, p.endAim s.clock (a.lastLock.getD s.clock) a.ranged o defer,
    s.closeObservation_openClosed, hp, hfields, ?_, ?_, ?_, h1, h2, h3, h4, h5, h6, h7, fun k hk => ?_⟩
  · rw [hend, hmisses]
  · rw [hframe, TargetRecord.applyOutcome_frame]
  · rw [← hdefer]; exact hstate
  · have hsector := State.writeBlock_sector o a hk
    rw [blockAfter_eq] at hsector
    rw [hend]
    refine hsector.trans ?_
    by_cases hs : a.sector = some k <;> simp [hs]

end Sys2Proof.Machine

namespace Sys2Proof.Machine

open Sys2Proof

/-! ### Ranges of sectors -/

/-- The number of sectors in a range (R48), as the distance upward from the first to the last, the wrap from 63 to 0
taken. -/
theorem rangeCount_eq {first last : Nat} (hf : first ≤ 63) (hl : last ≤ 63) :
    rangeCount first last = (last + 64 - first) % 64 + 1 := by
  unfold rangeCount
  split <;> omega

/-- A sector lies in a range exactly when it is no further upward from the first than the last is (R48). -/
theorem inSectorRange_iff {first last i : Nat} (hf : first ≤ 63) (hl : last ≤ 63) (hi : i < 64) :
    inSectorRange first last i = true ↔ (i + 64 - first) % 64 ≤ (last + 64 - first) % 64 := by
  unfold inSectorRange
  split
  · simp only [Bool.and_eq_true, decide_eq_true_eq]
    omega
  · simp only [Bool.or_eq_true, decide_eq_true_eq]
    omega

@[simp] theorem length_rangeSectors (first last : Nat) : (rangeSectors first last).length = rangeCount first last := by
  simp [rangeSectors]

theorem getElem?_rangeSectors {first last k : Nat} (hk : k < rangeCount first last) :
    (rangeSectors first last)[k]? = some ((first + k) % 64) := by
  simp [rangeSectors, hk]

/-! ### READ_SECTOR -/

theorem exec_readSector_ready {s : State} (h : s.LinkReady) (a : SectorRange) : exec (.readSector (some a)) s =
    .next ((readSectorRule a s).state.respond 8 (readSectorRule a s).answer) :=
  congrArg _ (State.takeCommand_ready h .readSector a readSectorRule)

theorem readSectorRule_badValue {a : SectorRange} (h : 63 < a.first ∨ 63 < a.last) (s : State) :
    readSectorRule a s = s.refuse .badValue := if_pos h

theorem readSectorRule_accepted {a : SectorRange} (hf : a.first ≤ 63) (hl : a.last ≤ 63) (s : State) :
    readSectorRule a s = ⟨.ok (.sectors ((rangeSectors a.first a.last).map fun i => (i, s.sector i))), s⟩ :=
  if_neg (by omega)

/-- Settles O14: the items are the sectors of `rangeSectors`, each beside its entry. -/
theorem readSectorReports : Obligations.ReadSectorReports := by
  intro a s hready
  rw [exec_readSector_ready hready]
  refine ⟨fun hout => ?_, fun hf hl => ⟨(rangeSectors a.first a.last).map fun i => (i, s.sector i), ?_, fun k hk => ?_, ?_⟩⟩
  · rw [readSectorRule_badValue hout]
    rfl
  · rw [List.length_map, length_rangeSectors, rangeCount_eq hf hl]
  · rw [List.length_map, length_rangeSectors] at hk
    rw [List.getElem?_map, getElem?_rangeSectors hk]
    rfl
  · rw [readSectorRule_accepted hf hl]
    rfl

/-! ### SET_SECTOR -/

theorem exec_setSector_ready {s : State} (h : s.LinkReady) (a : SectorArgs) : exec (.setSector (some a)) s =
    .next ((setSectorRule a s).state.respond 7 (setSectorRule a s).answer).followLight :=
  congrArg lit (State.takeCommand_ready h .setSector a setSectorRule)

/-- A limit of a sector, held in the range of R49, in the words of the statements. -/
theorem clampNat_sectorLimit (v : Nat) : clampNat 200000 1800000 v = max 200000 (min 1800000 v) :=
  clampNat_eq (by decide) v

/-- The value test of SET_SECTOR (R49): the sectors, the mode, and the limits as they are held. -/
theorem setSectorRule_badValue {a : SectorArgs} (s : State) (h : 63 < a.first ∨ 63 < a.last ∨ modeOfCode a.mode = none ∨
    max 200000 (min 1800000 a.vmax) ≤ max 200000 (min 1800000 a.vmin)) : setSectorRule a s = s.refuse .badValue := by
  unfold setSectorRule
  rw [clampNat_sectorLimit, clampNat_sectorLimit]
  split
  · rfl
  · rename_i hin
    cases hm : modeOfCode a.mode with
    | none => rfl
    | some mode =>
      have hlimits : max 200000 (min 1800000 a.vmax) ≤ max 200000 (min 1800000 a.vmin) := by
        rcases h with h | h | h | h
        · exact absurd (.inl h) hin
        · exact absurd (.inr h) hin
        · rw [hm] at h; cases h
        · exact h
      exact if_pos hlimits

/-- SET_SECTOR accepted (R50, R57). -/
theorem setSectorRule_accepted {a : SectorArgs} {mode : SectorMode} (s : State) (hf : a.first ≤ 63) (hl : a.last ≤ 63)
    (hm : modeOfCode a.mode = some mode)
    (hlimits : max 200000 (min 1800000 a.vmin) < max 200000 (min 1800000 a.vmax)) :
    setSectorRule a s = ⟨.ok .none, { s with sectors := writeSectors a mode s.sectors }.select⟩ := by
  unfold setSectorRule
  rw [clampNat_sectorLimit, clampNat_sectorLimit, if_neg (by omega), hm]
  exact if_neg (Nat.not_le.mpr hlimits)

@[simp] theorem length_writeSectors (a : SectorArgs) (mode : SectorMode) (table : List Sector) :
    (writeSectors a mode table).length = table.length := List.length_mapIdx ..

/-- An entry after SET_SECTOR (R50): in the range it takes the mode and the limits and keeps its block count. -/
theorem getElem?_writeSectors {a : SectorArgs} {table : List Sector} {i : Nat} {e : Sector} (mode : SectorMode)
    (hf : a.first ≤ 63) (hl : a.last ≤ 63) (hi : i < 64) (he : table[i]? = some e) :
    (writeSectors a mode table)[i]? = some (if (i + 64 - a.first) % 64 ≤ (a.last + 64 - a.first) % 64 then
      ⟨mode, max 200000 (min 1800000 a.vmin), max 200000 (min 1800000 a.vmax), e.block⟩ else e) := by
  unfold writeSectors
  rw [List.getElem?_mapIdx, he, Option.map_some, clampNat_sectorLimit, clampNat_sectorLimit]
  simp only [inSectorRange_iff hf hl hi]

/-- Settles O31: a refusal changes no condition of R128; the sectors written are those of `getElem?_writeSectors`. -/
theorem setSectorWritesRange : Obligations.SetSectorWritesRange := by
  intro a s hready hlight
  rw [exec_setSector_ready hready]
  refine ⟨fun hbad => ?refused, fun mode hf hl hm hlimits h64 =>
    ⟨writeSectors a mode s.sectors, ?length, fun i e he => ?entry, ?accepted⟩⟩
  case refused =>
    rw [setSectorRule_badValue s hbad]
    exact congrArg _ (State.followLight_respond hlight _ _)
  case length => rw [length_writeSectors, h64]
  case entry =>
    obtain ⟨hi, -⟩ := List.getElem?_eq_some_iff.mp he
    exact getElem?_writeSectors mode hf hl (h64 ▸ hi) he
  case accepted => rw [setSectorRule_accepted s hf hl hm hlimits]

/-! ### The block decay -/

theorem exec_blockDecay_due {s : State} (h : s.decayDue ≤ s.clock) : exec .blockDecay s = .next { s with
    sectors := s.sectors.map fun e => { e with block := e.block - 1 }
    decayDue := s.decayDue + 10000 } :=
  congrArg _ (if_pos h)

theorem exec_blockDecay_early {s : State} (h : s.clock < s.decayDue) : exec .blockDecay s = .next s :=
  congrArg _ (if_neg (Nat.not_le.mpr h))

/-- A block count above 0 falls by one (R54). -/
theorem block_decayed (n : Nat) : n - 1 = if n = 0 then 0 else n - 1 := by
  split <;> omega

/-! ### The expiries of a peer record -/

theorem expired_iff {deadline : Option Nat} {now : Nat} :
    expired deadline now = true ↔ ∃ d, deadline = some d ∧ d ≤ now := by
  cases deadline <;> simp [expired]

theorem Peer.silent_iff {p : Peer} {now : Nat} : p.silent now = true ↔ p.lastHeard + 15000 ≤ now := decide_eq_true_iff

theorem Peer.intentOver_iff {p : Peer} {now : Nat} :
    p.intentOver now = true ↔ ∃ u, p.intent = some u ∧ u.expiry ≤ now := by
  simp [Peer.intentOver, expired_iff]

section PeerExpiries

variable {s : State} {i : Nat} {p : Peer} (hp : s.peers.table[i]? = some (some p))
include hp

/-- A peer entry changed, in a table that holds its record. -/
theorem State.onPeer_of_table {f : Peer → Option Peer} {o : Option Peer} (hf : f p = o) :
    s.onPeer i f = { s with peers := { s.peers with table := s.peers.table.set i o } } := by
  have hset : (s.peers.table.modify i fun o => o.bind f) = s.peers.table.set i o := by
    rw [List.modify_eq_set_getElem?, hp, ← hf]
    rfl
  rw [← hset]
  rfl

/-- A peer entry written as it stands changes nothing. -/
theorem State.onPeer_of_eq {f : Peer → Option Peer} (hf : f p = some p) : s.onPeer i f = s := by
  obtain ⟨hi, he⟩ := List.getElem?_eq_some_iff.mp hp
  rw [State.onPeer_of_table hp hf, ← he, List.set_getElem_self]

theorem exec_peerRecordExpiry_silent (h : p.lastHeard + 15000 ≤ s.clock) : exec (.peerRecordExpiry i) s =
    .next { s with peers := { s.peers with table := s.peers.table.set i none } } :=
  congrArg _ (State.onPeer_of_table hp (if_pos (Peer.silent_iff.mpr h)))

theorem exec_peerRecordExpiry_early (h : s.clock < p.lastHeard + 15000) : exec (.peerRecordExpiry i) s = .next s :=
  congrArg _ (State.onPeer_of_eq hp (if_neg fun hs => Nat.not_le.mpr h (Peer.silent_iff.mp hs)))

theorem exec_intentExpiry_over {u : Intent} (hu : p.intent = some u) (h : u.expiry ≤ s.clock) :
    exec (.intentExpiry i) s =
      .next { s with peers := { s.peers with table := s.peers.table.set i (some { p with intent := none }) } } :=
  congrArg _ (State.onPeer_of_table hp (by rw [if_pos (Peer.intentOver_iff.mpr ⟨u, hu, h⟩)]))

theorem exec_intentExpiry_early (h : ∀ u, p.intent = some u → s.clock < u.expiry) :
    exec (.intentExpiry i) s = .next s := by
  have hearly : ¬ p.intentOver s.clock = true := by
    rw [Peer.intentOver_iff]
    rintro ⟨u, hu, hle⟩
    exact Nat.not_le.mpr (h u hu) hle
  exact congrArg _ (State.onPeer_of_eq hp (by rw [if_neg hearly]))

end PeerExpiries

/-! ### The PRESENCE deadline -/

/-- A PRESENCE offered (R162): what the offer does to the line (R152, R154), and its next deadline. -/
theorem State.offerPresence_eq (s : State) : s.offerPresence = { s with
    line := s.line.offered (.presence s.runState (s.setup.map fun u => ⟨u.es, u.ns, u.hs⟩)) s.config.isSome
    peers := { s.peers with presenceDeadline := some (s.clock + 5000) } } := by
  unfold State.offerPresence
  rw [State.offerFrame_offered]

theorem exec_presenceDeadline_due {s : State} {d : Nat} (hd : s.peers.presenceDeadline = some d) (h : d ≤ s.clock) :
    exec .presenceDeadline s = .next s.offerPresence :=
  congrArg _ (if_pos (expired_iff.mpr ⟨d, hd, h⟩))

theorem exec_presenceDeadline_early {s : State} (h : ∀ d, s.peers.presenceDeadline = some d → s.clock < d) :
    exec .presenceDeadline s = .next s := by
  have hearly : ¬ expired s.peers.presenceDeadline s.clock = true := by
    rw [expired_iff]
    rintro ⟨d, hd, hle⟩
    exact Nat.not_le.mpr (h d hd) hle
  exact congrArg _ (if_neg hearly)

/-- In listen-only an offer is discarded (R152). -/
theorem SiteLine.offered_listenOnly {l : SiteLine} (h : l.listenOnly = true) (f : Frame) (configured : Bool) :
    l.offered f configured = l :=
  if_neg (by simp [h])

/-- An offer joins the queue of a configured part that may transmit (R152, R154). -/
theorem SiteLine.offered_joins {l : SiteLine} (h : l.listenOnly = false) (f : Frame) : l.offered f true = { l with
    queue := placeFrame f l.queue
    transmitter := if l.transmitter = .idle then .waitingGap else l.transmitter } :=
  if_pos ⟨h, rfl⟩

/-- Settles O44: each timer at or past its instant, then before it. -/
theorem scheduledTimersRun : Obligations.ScheduledTimersRun := by
  intro s
  refine ⟨fun hdue => ?decay, exec_blockDecay_early, fun i p hp => ⟨exec_peerRecordExpiry_silent hp,
    exec_peerRecordExpiry_early hp, fun u => exec_intentExpiry_over hp, exec_intentExpiry_early hp⟩,
    fun d hd hdue hconfig => ⟨s.offerPresence, exec_presenceDeadline_due hd hdue, ?frame, ?deadline, fun hlisten => ?silent,
      fun hlisten => ?joins⟩, exec_presenceDeadline_early⟩
  case decay =>
    rw [exec_blockDecay_due hdue]
    simp only [← block_decayed]
  all_goals rw [State.offerPresence_eq]
  case silent => exact SiteLine.offered_listenOnly hlisten _ _
  case joins =>
    rw [hconfig]
    exact SiteLine.offered_joins hlisten _

end Sys2Proof.Machine

namespace Sys2Proof.Machine

open Sys2Proof

/-! ### The order of candidates -/

theorem classWeight_eq (cls : PrismClass) :
    (classWeight cls : Int) = if cls = .machine then 16 else if cls = .control then 4 else 2 := by
  cases cls <;> rfl

theorem PrismClass.place_eq (cls : PrismClass) : cls.place = classRank cls + 1 := by cases cls <;> rfl

/-- The class rank tells the classes apart (R67). -/
theorem classRank_inj {a b : PrismClass} : classRank a = classRank b ↔ a = b := by
  cases a <;> cases b <;> decide

/-- The score of a due candidate (R65): at or past the due time the overdue time is a plain difference. -/
theorem Candidate.score_due {c : Candidate} {now : Nat} (axes : Angles) (h : c.record.due ≤ now) :
    c.score now axes = (if c.record.cls = .machine then 16 else if c.record.cls = .control then 4 else 2) *
      min ((now : Int) - c.record.due) 60000 - 8 * c.slew axes - 2000 * c.block := by
  unfold Candidate.score
  rw [← classWeight_eq]
  push_cast [Nat.cast_sub h]
  rfl

/-- The four keys of R67 as one key of a linear order, the first candidate the least: score, class rank, slew estimate,
prism id. -/
def Candidate.key (now : Nat) (axes : Angles) (c : Candidate) : ℤ ×ₗ ℕ ×ₗ ℕ ×ₗ ℕ :=
  toLex (-c.score now axes, toLex (classRank c.record.cls, toLex (c.slew axes, c.record.prism)))

theorem Candidate.key_lt_iff {now : Nat} {axes : Angles} {c d : Candidate} : c.key now axes < d.key now axes ↔
    d.score now axes < c.score now axes ∨ c.score now axes = d.score now axes ∧
      (classRank c.record.cls < classRank d.record.cls ∨ classRank c.record.cls = classRank d.record.cls ∧
        (c.slew axes < d.slew axes ∨ c.slew axes = d.slew axes ∧ c.record.prism < d.record.prism)) := by
  simp only [Candidate.key, Prod.Lex.toLex_lt_toLex, neg_lt_neg_iff, neg_inj]

/-- `before` is the order of the keys. -/
theorem Candidate.before_iff {now : Nat} {axes : Angles} {c d : Candidate} :
    c.before now axes d = true ↔ c.key now axes < d.key now axes := by
  rw [Candidate.key_lt_iff]
  unfold Candidate.before
  split
  · rename_i hscore
    simp [hscore]
  · rename_i hscore
    rw [not_ne_iff] at hscore
    simp only [hscore, lt_irrefl, false_or, true_and]
    split
    · rename_i hrank
      simp [hrank]
    · rename_i hrank
      rw [not_ne_iff] at hrank
      simp only [hrank, lt_irrefl, false_or, true_and]
      split
      · rename_i hslew
        simp [hslew]
      · rename_i hslew
        rw [not_ne_iff] at hslew
        simp [hslew]

theorem Candidate.before_eq_false_iff {now : Nat} {axes : Angles} {c d : Candidate} :
    c.before now axes d = false ↔ d.key now axes ≤ c.key now axes := by
  rw [← Bool.not_eq_true, Candidate.before_iff, not_lt]

/-- Settles O32. -/
theorem candidateOrder : Obligations.CandidateOrder := by
  intro now axes c d
  refine ⟨Candidate.score_due axes, ?_⟩
  rw [Candidate.before_iff, Candidate.key_lt_iff, classRank_inj, PrismClass.place_eq, PrismClass.place_eq,
    Nat.add_lt_add_iff_right]

/-- Among candidates there is a first one (R67). -/
theorem eq_nil_of_firstCandidate {now : Nat} {axes : Angles} {cs : List Candidate}
    (h : firstCandidate now axes cs = none) : cs = [] := by
  cases cs with
  | nil => rfl
  | cons c cs =>
    unfold firstCandidate at h
    repeat' split at h
    all_goals cases h

/-- The first candidate has the least key: none of the list comes before it (R67). -/
theorem firstCandidate_first {now : Nat} {axes : Angles} {cs : List Candidate} {c : Candidate}
    (h : firstCandidate now axes cs = some c) : ∀ d ∈ cs, d.before now axes c = false := by
  simp only [Candidate.before_eq_false_iff]
  induction cs generalizing c with
  | nil => cases h
  | cons e es ih =>
    unfold firstCandidate at h
    rw [List.forall_mem_cons]
    cases hb : firstCandidate now axes es with
    | none =>
      rw [hb] at h
      cases h
      simp [eq_nil_of_firstCandidate hb]
    | some b =>
      rw [hb] at h
      dsimp only at h
      split at h
      · rename_i hbefore
        cases h
        exact ⟨(Candidate.before_iff.mp hbefore).le, ih hb⟩
      · rename_i hnot
        cases h
        rw [Bool.not_eq_true, Candidate.before_eq_false_iff] at hnot
        exact ⟨le_rfl, fun d hd => hnot.trans (ih hb d hd)⟩

end Sys2Proof.Machine

namespace Sys2Proof.Machine

open Sys2Proof

/-! ### The filter -/

section Filter

variable {s : State} {r : TargetRecord}

/-- Test 1 of R61. -/
theorem State.filter_unpredicted (h : r.prediction s.clock = none) : s.filter r = .fails .noPrediction := by
  unfold State.filter
  rw [h]

variable {p : Grid} (hp : r.prediction s.clock = some p)
include hp

/-- Tests 3 and 4 of R61, one of them failed. -/
theorem State.filter_masked {d : Direction} (hd : directionTo s.setup p = .given d) (hf : ¬ s.FilterPassed r d) :
    s.filter r = .fails .masked := by
  rw [← s.filter_passes_iff] at hf
  simp only [State.filter, hp, hd] at hf ⊢
  split
  · rfl
  · rename_i hopen
    rw [if_neg hopen] at hf
    split
    · rfl
    · rename_i hband
      exact absurd (if_neg hband) hf

end Filter

/-! ### A look at a record that is seen -/

theorem TargetRecord.deferOver_iff {now : Nat} {r : TargetRecord} : r.deferOver now = true ↔
    r.state = .deferred ∧ ∀ t, r.deferUntil = some t → t ≤ now := by
  unfold TargetRecord.deferOver
  cases r.deferUntil <;> simp

/-- The record as the pass sees it stands in one of the two ways of R60. -/
theorem TargetRecord.seenAs_iff {now : Nat} {r q : TargetRecord} : r.seenAs now q ↔
    r.state = .idle ∧ q = r ∨ r.deferOver now = true ∧ q = r.returnIdle := by
  rw [TargetRecord.deferOver_iff, and_assoc]
  rfl

theorem State.look_seen (i : Nat) {s : State} {r q : TargetRecord} (h : r.seenAs s.clock q) :
    s.look i r = s.lookIdle i q := by
  unfold State.look
  rcases TargetRecord.seenAs_iff.mp h with ⟨hs, rfl⟩ | ⟨hover, rfl⟩
  · rw [hs]
  · obtain ⟨hs, -⟩ := TargetRecord.deferOver_iff.mp hover
    rw [hs]
    exact if_pos hover

/-- A record that the pass does not see is left without a candidate (R60). -/
theorem State.look_unseen (i : Nat) {s : State} {r : TargetRecord} (h : ∀ q, ¬ r.seenAs s.clock q) :
    s.look i r = ⟨r, none⟩ := by
  simp only [TargetRecord.seenAs_iff, not_or] at h
  unfold State.look
  cases hs : r.state with
  | active => rfl
  | deferred => exact if_neg fun hover => (h _).2 ⟨hover, rfl⟩
  | idle => exact absurd ⟨hs, rfl⟩ (h r).1

theorem State.lookIdle_candidate_iff {s : State} {i : Nat} {q : TargetRecord} {c : Candidate} :
    (s.lookIdle i q).candidate = some c ↔
      q.due ≤ s.clock ∧ ∃ d, s.filter q = .passes d ∧ s.candidate i q d = c := by
  unfold State.lookIdle
  by_cases hdue : s.clock < q.due
  · simp [hdue]
  · rw [if_neg hdue]
    cases hf : s.filter q with
    | passes d => simp [Nat.not_lt.mp hdue]
    | fails why => cases hw : why.reason <;> simp [hw]

theorem State.look_candidate_iff {s : State} {i : Nat} {r : TargetRecord} {c : Candidate} :
    (s.look i r).candidate = some c ↔
      ∃ q, r.seenAs s.clock q ∧ q.due ≤ s.clock ∧ ∃ d, s.filter q = .passes d ∧ s.candidate i q d = c := by
  constructor
  · intro h
    by_cases hseen : ∃ q, r.seenAs s.clock q
    · obtain ⟨q, hq⟩ := hseen
      rw [State.look_seen i hq] at h
      exact ⟨q, hq, State.lookIdle_candidate_iff.mp h⟩
    · rw [State.look_unseen i (not_exists.mp hseen)] at h
      cases h
  · rintro ⟨q, hq, h⟩
    rw [State.look_seen i hq]
    exact State.lookIdle_candidate_iff.mpr h

/-! ### The candidates of the ordinary pass -/

theorem State.mem_lookedCandidates {s : State} {i : Nat} {table : List (Option TargetRecord)} {c : Candidate} :
    c ∈ s.lookedCandidates i table ↔
      ∃ k r, table[k]? = some (some r) ∧ (s.look (i + k) r).candidate = some c := by
  induction table generalizing i with
  | nil => simp [State.lookedCandidates]
  | cons o os ih =>
    simp only [State.lookedCandidates, List.mem_append, Option.mem_toList, Option.bind_eq_some_iff, ih]
    constructor
    · rintro (⟨r, rfl, hc⟩ | ⟨k, r, hr, hc⟩)
      · exact ⟨0, r, rfl, hc⟩
      · exact ⟨k + 1, r, hr, by rwa [← Nat.succ_add_eq_add_succ]⟩
    · rintro ⟨k, r, hr, hc⟩
      cases k with
      | zero => exact .inl ⟨r, by simpa using hr, hc⟩
      | succ k => exact .inr ⟨k, r, hr, by rwa [Nat.succ_add_eq_add_succ]⟩

/-- The pass finds the candidates of R60 and R61, and no others. -/
theorem State.mem_lookedCandidates_iff {s : State} {c : Candidate} :
    c ∈ s.lookedCandidates 0 s.table ↔ s.IsCandidate c := by
  simp only [State.mem_lookedCandidates, Nat.zero_add, State.look_candidate_iff]
  constructor
  · rintro ⟨k, r, hr, q, hq, hdue, d, hf, rfl⟩
    exact ⟨⟨r, hr, hq⟩, hdue, hf, rfl, rfl⟩
  · obtain ⟨slot, q, d, sector, block⟩ := c
    rintro ⟨⟨r, hr, hq⟩, hdue, hf, hsector, hblock⟩
    dsimp only at hr hq hdue hf hsector hblock
    subst hsector hblock
    exact ⟨slot, r, hr, q, hq, hdue, d, hf, rfl⟩

theorem State.ordinaryPass_idle {s : State} (h : ∀ c, ¬ s.IsCandidate c) :
    s.ordinaryPass = { s with table := s.lookedTable 0 s.table } := by
  have hnil : s.lookedCandidates 0 s.table = [] :=
    List.eq_nil_iff_forall_not_mem.mpr fun c hc => h c (State.mem_lookedCandidates_iff.mp hc)
  unfold State.ordinaryPass
  rw [hnil]
  rfl

/-- With candidates there is a first one, and the pass hands it over (R59 step 3, R67). -/
theorem State.ordinaryPass_handOver {s : State} (h : ∃ c, s.IsCandidate c) :
    ∃ c, s.IsCandidate c ∧ (∀ d, s.IsCandidate d → d.before s.clock s.axes c = false) ∧
      s.ordinaryPass = ({ s with table := s.lookedTable 0 s.table } : State).handOver c.slot c.record c.direction := by
  obtain ⟨c₀, hc₀⟩ := h
  cases hfirst : firstCandidate s.clock s.axes (s.lookedCandidates 0 s.table) with
  | none =>
    have hmem := State.mem_lookedCandidates_iff.mpr hc₀
    rw [eq_nil_of_firstCandidate hfirst] at hmem
    cases hmem
  | some c =>
    refine ⟨c, State.mem_lookedCandidates_iff.mp (firstCandidate_mem hfirst),
      fun d hd => firstCandidate_first hfirst d (State.mem_lookedCandidates_iff.mpr hd), ?_⟩
    unfold State.ordinaryPass
    rw [hfirst]

/-! ### What a pass and a hand-over do to the table -/

@[simp] theorem State.handOver_table (s : State) (slot : Nat) (r : TargetRecord) (d : Direction) :
    (s.handOver slot r d).table = s.table.set slot (some { r with state := .active }) := by
  unfold State.handOver State.offerIntent
  split <;> simp [State.setRecord]

theorem State.lookedTable_leftAs {s : State} {i : Nat} {r : TargetRecord} (h : s.table[i]? = some (some r)) :
    ∃ p, (s.lookedTable 0 s.table)[i]? = some (some p) ∧ s.LeftAs r p := by
  refine ⟨(s.look i r).record, ?_, s.look_leftAs i r⟩
  rw [State.lookedTable_getElem?, h, Nat.zero_add]
  rfl

theorem State.lookedTable_free {s : State} {i : Nat} (h : s.table[i]? = some none) :
    (s.lookedTable 0 s.table)[i]? = some none := by
  rw [State.lookedTable_getElem?, h]
  rfl

/-- The filter and the moves of a hand-over do not look at the table or at the forced-aim slot. -/
theorem State.HandedOver.of_frame {s t : State} {slot : Nat} {r : TargetRecord} {d : Direction}
    {table : List (Option TargetRecord)} {forced : Option Nat}
    (h : State.HandedOver slot r d { s with table := table, forced := forced } t) : State.HandedOver slot r d s t := by
  obtain ⟨⟨hpredicted, hsky, hband⟩, hrecord, hengine, hintent, haxes, hdark, hframe⟩ := h
  exact ⟨⟨hpredicted, hsky, hband⟩, hrecord, hengine, hintent, haxes, hdark, hframe⟩

/-- The forced-aim slot takes no part in the ordinary pass (R59 step 2). -/
theorem State.lookedTable_forced (s : State) (forced : Option Nat) (i : Nat) (table : List (Option TargetRecord)) :
    ({ s with forced := forced } : State).lookedTable i table = s.lookedTable i table := by
  refine List.ext_getElem? fun k => ?_
  rw [State.lookedTable_getElem?, State.lookedTable_getElem?]
  rfl

theorem State.lookedCandidates_forced (s : State) (forced : Option Nat) (i : Nat)
    (table : List (Option TargetRecord)) :
    ({ s with forced := forced } : State).lookedCandidates i table = s.lookedCandidates i table := by
  induction table generalizing i with
  | nil => rfl
  | cons o os ih =>
    unfold State.lookedCandidates
    rw [ih]
    rfl

theorem State.handOver_setForced (s : State) (forced : Option Nat) (slot : Nat) (r : TargetRecord) (d : Direction) :
    ({ s with forced := forced } : State).handOver slot r d = { s.handOver slot r d with forced := forced } := by
  unfold State.handOver State.offerIntent
  simp only [State.offerFrame_offered]
  split <;> rfl

theorem State.ordinaryPass_setForced (s : State) (forced : Option Nat) :
    ({ s with forced := forced } : State).ordinaryPass = { s.ordinaryPass with forced := forced } := by
  have haxes : ({ s with forced := forced } : State).axes = s.axes := rfl
  unfold State.ordinaryPass
  rw [State.lookedTable_forced, State.lookedCandidates_forced, haxes]
  dsimp only
  cases firstCandidate s.clock s.axes (s.lookedCandidates 0 s.table) with
  | none => rfl
  | some c => exact State.handOver_setForced { s with table := s.lookedTable 0 s.table } forced _ _ _

/-! ### When a selection is made, and its forced step -/

theorem State.select_eq_self {s : State} (h : s.engine.state ≠ .waiting ∨ s.held = true) : s.select = s := by
  refine if_neg ?_
  rintro ⟨hwaiting, hheld⟩
  rcases h with h | h
  · exact h hwaiting
  · rw [hheld] at h; cases h

section Waiting

variable {s : State} (hw : s.engine.state = .waiting) (hh : s.held = false)
include hw hh

theorem State.select_waiting : s.select = s.selection := if_pos ⟨hw, hh⟩

theorem State.select_unforced (hf : s.forced = none) : s.select = s.ordinaryPass := by
  rw [State.select_waiting hw hh]
  unfold State.selection
  rw [hf]

/-- The slot emptied with FORCED_DROPPED, then the ordinary pass, is a selection with the slot empty (R63). -/
theorem State.dropForced_ordinaryPass : s.dropForced.ordinaryPass = s.dropForced.select :=
  (State.select_unforced (s := s.dropForced) hw hh rfl).symm

variable {p : Nat} (hf : s.forced = some p)
include hf

theorem State.select_forced_unknown (hunknown : ∀ r : TargetRecord, some r ∈ s.table → r.prism ≠ p) :
    s.select = s.dropForced.select := by
  rw [State.select_waiting hw hh, ← State.dropForced_ordinaryPass hw hh]
  unfold State.selection
  rw [hf]
  dsimp only
  rw [State.slotOf_unknown hunknown]

variable {i : Nat} {r : TargetRecord} (hc : s.Carries i r p)
include hc

/-- The forced record held back by a defer: the ordinary pass is made, and the slot is kept (R63). -/
theorem State.select_forced_deferred (hd : r.state = .deferred) (ht : r.deferOver s.clock = false) :
    s.select = { ({ s with forced := none } : State).select with forced := some p } := by
  obtain ⟨hslot, hrec⟩ := State.slotOf_carries hc
  have hpass : s.select = s.ordinaryPass := by
    rw [State.select_waiting hw hh]
    simp [State.selection, hf, hslot, hrec, hd, ht]
  have hunforced : ({ s with forced := none } : State).select = ({ s with forced := none } : State).ordinaryPass :=
    State.select_unforced hw hh rfl
  have hkept : ({ ({ s with forced := none } : State) with forced := some p } : State) = s := by rw [← hf]
  rw [hpass, hunforced, ← State.ordinaryPass_setForced, hkept]

/-- The forced record IDLE, or just returned to it: the filter decides (R63). -/
theorem State.select_forced_seen {q : TargetRecord} (hq : r.seenAs s.clock q) :
    s.select = (s.setRecord i (some q)).forcedIdle i q := by
  obtain ⟨hslot, hrec⟩ := State.slotOf_carries hc
  rw [State.select_waiting hw hh]
  rcases TargetRecord.seenAs_iff.mp hq with ⟨hs, rfl⟩ | ⟨hover, rfl⟩
  · have hset : s.setRecord i (some q) = s := by
      obtain ⟨hi, he⟩ := List.getElem?_eq_some_iff.mp hc.1
      unfold State.setRecord
      rw [← he, List.set_getElem_self]
    rw [hset]
    simp [State.selection, hf, hslot, hrec, hs]
  · obtain ⟨hs, -⟩ := TargetRecord.deferOver_iff.mp hover
    simp [State.selection, hf, hslot, hrec, hs, hover]

end Waiting

theorem State.forcedIdle_fails {s : State} {i : Nat} {q : TargetRecord} {why : FilterFail}
    (h : s.filter q = .fails why) : s.forcedIdle i q = s.dropForced.ordinaryPass := by
  unfold State.forcedIdle
  rw [h]

theorem State.forcedIdle_passes {s : State} {i : Nat} {q : TargetRecord} {d : Direction}
    (h : s.filter q = .passes d) : s.forcedIdle i q = ({ s with forced := none } : State).handOver i q d := by
  unfold State.forcedIdle
  rw [h]

/-! ### What a selection does -/

section Selecting

variable {s : State} (hw : s.engine.state = .waiting) (hh : s.held = false)
include hw hh

/-- With no candidate the ordinary pass leaves its returns and markings, and the engine WAITING (R59 step 4). -/
theorem State.select_idle (hf : s.forced = none) (hc : ∀ c, ¬ s.IsCandidate c) :
    s.select = { s with table := s.lookedTable 0 s.table } := by
  rw [State.select_unforced hw hh hf, State.ordinaryPass_idle hc]

/-- With candidates the first is handed over, out of the table that the pass leaves (R59 step 3). -/
theorem State.select_first (hf : s.forced = none) (hc : ∃ c, s.IsCandidate c) :
    ∃ c, s.IsCandidate c ∧ (∀ d, s.IsCandidate d → d.before s.clock s.axes c = false) ∧
      State.HandedOver c.slot c.record c.direction s s.select ∧ s.select.forced = none ∧
      s.select.table = (s.lookedTable 0 s.table).set c.slot (some { c.record with state := .active }) := by
  obtain ⟨c, hcand, hfirst, hpass⟩ := State.ordinaryPass_handOver hc
  have ⟨⟨r, hr, _⟩, _, hpasses, _⟩ := hcand
  obtain ⟨hlt, -⟩ := List.getElem?_eq_some_iff.mp hr
  refine ⟨c, hcand, hfirst, ?_, ?_, ?_⟩
  all_goals rw [State.select_unforced hw hh hf, hpass]
  · exact (State.handOver_handedOver (s := { s with table := s.lookedTable 0 s.table }) c.slot hpasses
      (hlt.trans_eq (s.lookedTable_length 0 s.table).symm)).of_frame
  · rw [State.handOver_forced, hf]
  · rw [State.handOver_table]

variable {p i : Nat} {r q : TargetRecord} (hf : s.forced = some p) (hc : s.Carries i r p) (hq : r.seenAs s.clock q)
include hf hc hq

/-- The forced record that the filter refuses: the name dropped, then a selection of the ordinary pass (R63). -/
theorem State.select_forced_fails {why : FilterFail} (h : s.filter q = .fails why) :
    s.select = (s.setRecord i (some q)).dropForced.select := by
  rw [State.select_forced_seen hw hh hf hc hq, State.forcedIdle_fails (s := s.setRecord i (some q)) h,
    State.dropForced_ordinaryPass (s := s.setRecord i (some q)) hw hh]

/-- The forced record that passes is handed over, due or not, and no other record is looked at (R59, R63). -/
theorem State.select_forced_passes {d : Direction} (h : s.filter q = .passes d) :
    State.HandedOver i q d s s.select ∧ s.select.forced = none ∧
      ∀ j : Nat, j ≠ i → s.select.table[j]? = s.table[j]? := by
  obtain ⟨hlt, -⟩ := List.getElem?_eq_some_iff.mp hc.1
  rw [State.select_forced_seen hw hh hf hc hq, State.forcedIdle_passes (s := s.setRecord i (some q)) h]
  refine ⟨?_, by rw [State.handOver_forced], fun j hj => ?_⟩
  · exact (State.handOver_handedOver (s := { s with table := s.table.set i (some q), forced := none }) i h
      (hlt.trans_eq List.length_set.symm)).of_frame
  · rw [State.handOver_table, List.getElem?_set_ne (Ne.symm hj)]
    exact List.getElem?_set_ne (Ne.symm hj)

end Selecting

/-- Settles O33: the filter's tests, then the two passes of a selection by the lemmas on `select`. -/
theorem selectionHandsOverFirst : Obligations.SelectionHandsOverFirst := by
  intro s
  refine ⟨State.select_eq_self, fun r => ⟨State.filter_unpredicted, fun p hp => ⟨fun hd => ?tooClose,
    fun hd => ?tooFar, fun hd => ?outOfLimits, fun d hd => ⟨(s.filter_passes_iff r d).mpr, State.filter_masked hp hd⟩⟩⟩,
    fun hw hh => ⟨fun hf => ⟨fun hc => ?idle, fun hc => ?first⟩, fun p dropped hf hdropped =>
      ⟨fun hunknown => ?unknown, fun i r hc => ⟨fun hd ht => ?deferred, fun q hq =>
        ⟨fun why h => ?fails, fun d => State.select_forced_passes hw hh hf hc hq⟩⟩⟩⟩⟩
  case tooClose | tooFar | outOfLimits => simp only [State.filter, hp, hd]
  case idle =>
    rw [State.select_idle hw hh hf hc]
    exact ⟨rfl, fun i r => State.lookedTable_leftAs, fun i => State.lookedTable_free⟩
  case first =>
    obtain ⟨c, hcand, hfirst, hover, hforced, htable⟩ := State.select_first hw hh hf hc
    have ⟨⟨r, hr, _⟩, _⟩ := hcand
    refine ⟨c, hcand, hfirst, hover, hforced, fun i q hi hq => ?_, fun i hfree => ?_⟩
    · rw [htable, List.getElem?_set_ne (Ne.symm hi)]
      exact State.lookedTable_leftAs hq
    · have hne : c.slot ≠ i := by
        rintro rfl
        rw [hr] at hfree
        cases hfree
      rw [htable, List.getElem?_set_ne hne]
      exact State.lookedTable_free hfree
  case unknown =>
    rw [State.select_forced_unknown hw hh hf hunknown, hdropped]
    rfl
  case deferred =>
    obtain ⟨t, ht, hlt⟩ := ht
    refine State.select_forced_deferred hw hh hf hc hd ?_
    rw [← Bool.not_eq_true, TargetRecord.deferOver_iff]
    rintro ⟨-, hover⟩
    exact Nat.not_le.mpr hlt (hover t ht)
  case fails =>
    rw [State.select_forced_fails hw hh hf hc hq h, hdropped]
    rfl

end Sys2Proof.Machine

namespace Sys2Proof.Machine

open Sys2Proof

/-! ### AIM_NOW -/

theorem exec_aimNow_ready {s : State} (h : s.LinkReady) (p : Nat) : exec (.aimNow (some p)) s =
    .next ((aimNowRule p s).state.respond 11 (aimNowRule p s).answer) :=
  congrArg _ (State.takeCommand_ready h .aimNow p aimNowRule)

theorem aimNowRule_badValue {p : Nat} (h : prismInRange p = false) (s : State) :
    aimNowRule p s = ⟨.aimRefused none, s⟩ := if_pos h

section AimNow

variable {s : State} {p : Nat} (hp : prismInRange p = true)
include hp

theorem aimNowRule_unknownPrism (h : s.slotOf p = none) : aimNowRule p s = s.refuse .unknownPrism := by
  simp [aimNowRule, hp, h]

variable {i : Nat} {r : TargetRecord} (h : s.Carries i r p)
include h

theorem aimNowRule_notReady (hsetup : s.setup = none) : aimNowRule p s = s.refuse .notReady := by
  obtain ⟨hslot, hrec⟩ := State.slotOf_carries h
  simp [aimNowRule, hp, hslot, hrec, hsetup]

variable (hsetup : s.setup.isSome = true)
include hsetup

theorem aimNowRule_fails {why : FilterFail} (hf : s.filter r = .fails why) :
    aimNowRule p s = ⟨.aimRefused (some why), s⟩ := by
  obtain ⟨hslot, hrec⟩ := State.slotOf_carries h
  simp [aimNowRule, hp, hslot, hrec, Option.isSome_iff_ne_none.mp hsetup, hf]

theorem aimNowRule_accepted {d : Direction} (hf : s.filter r = .passes d) :
    aimNowRule p s = ⟨.ok (.direction d.hz d.v d.sd), { s with forced := some p }.select⟩ := by
  obtain ⟨hslot, hrec⟩ := State.slotOf_carries h
  simp [aimNowRule, hp, hslot, hrec, Option.isSome_iff_ne_none.mp hsetup, hf]

end AimNow

/-- Settles O37: each test of R71 in turn, those before it passed. -/
theorem aimNowForces : Obligations.AimNowForces := by
  intro p s hready
  rw [exec_aimNow_ready hready]
  refine ⟨fun hbad => ?badValue, fun hlo hhi hunknown => ?unknownPrism, fun i r hlo hhi hr hrp hlowest =>
    ⟨fun hsetup => ?notReady, fun why hsetup hf => ?fails, fun d hsetup hf => ?accepted⟩⟩
  case badValue =>
    rw [aimNowRule_badValue ((prismInRange_eq_false_iff p).mpr hbad)]
    rfl
  all_goals have hprism : prismInRange p = true := (prismInRange_iff p).mpr ⟨hlo, hhi⟩
  case unknownPrism =>
    rw [aimNowRule_unknownPrism hprism (State.slotOf_unknown hunknown)]
    rfl
  all_goals have hcarries : s.Carries i r p := ⟨hr, hrp, hlowest⟩
  case notReady =>
    rw [aimNowRule_notReady hprism hcarries hsetup]
    rfl
  case fails =>
    rw [aimNowRule_fails hprism hcarries hsetup hf]
    rfl
  case accepted => rw [aimNowRule_accepted hprism hcarries hsetup hf]

end Sys2Proof.Machine

namespace Sys2Proof.Machine

open Sys2Proof

/-! ### The engine's records: what keeps them with its state -/

/-- The engine's records stand with its state in `t` where they do in `s` (R73, R130). -/
def State.EngineKept (s t : State) : Prop := s.EngineConsistent → t.EngineConsistent

/-- No aim context, no suspend record and no open observation: what STOPPED and WAITING ask for. -/
structure Engine.Empty (g : Engine) : Prop where
  aim : g.aim = none
  suspension : g.suspension = none
  openObs : g.openObs = none

/-- An aim context alone: what the states of an aim before its lock ask for. -/
structure Engine.Seeking (g : Engine) : Prop where
  aim : g.aim.isSome = true
  suspension : g.suspension = none
  openObs : g.openObs = none

/-- The states of a running aim before its lock (R87). -/
def EngineState.beforeLock : EngineState → Bool
  | .slewing | .acquiring | .searching | .centring => true
  | _ => false

theorem State.EngineKept.refl (s : State) : s.EngineKept s := id

theorem State.EngineKept.trans {s t u : State} (h : s.EngineKept t) (h' : t.EngineKept u) : s.EngineKept u :=
  fun hs => h' (h hs)

/-- `trans` from its last step: the state before that step is read off the step. -/
theorem State.EngineKept.after {s t u : State} (h' : t.EngineKept u) (h : s.EngineKept t) : s.EngineKept u := h.trans h'

theorem State.EngineKept.of_eq {s t : State} (h : t = s) : s.EngineKept t := h ▸ .refl s

theorem State.EngineKept.ite {s t u : State} {c : Prop} [Decidable c] (ht : c → s.EngineKept t)
    (hu : ¬ c → s.EngineKept u) : s.EngineKept (if c then t else u) := by
  split
  · exact ht ‹_›
  · exact hu ‹_›

/-- The engine's state, and which of its records and whether a window is present, are all that the law looks at. -/
theorem State.EngineKept.of_records {s t : State} (state : t.engine.state = s.engine.state)
    (aim : t.engine.aim.isSome = s.engine.aim.isSome)
    (suspension : t.engine.suspension.isSome = s.engine.suspension.isSome)
    (openObs : t.engine.openObs.isSome = s.engine.openObs.isSome)
    (window : t.light.window.isSome = s.light.window.isSome) : s.EngineKept t := by
  rintro ⟨h1, h2, h3, h4, h5⟩
  exact ⟨by rw [aim, state, h1], by rw [suspension, state, h2], by rwa [openObs, state], by rwa [openObs, state],
    by rw [window, state, h5]⟩

/-- A change beside the engine and the window. -/
theorem State.EngineKept.beside {s t : State} (engine : t.engine = s.engine := by rfl)
    (window : t.light.window = s.light.window := by rfl) : s.EngineKept t :=
  .of_records (by rw [engine]) (by rw [engine]) (by rw [engine]) (by rw [engine]) (by rw [window])

/-- The engine's records fit the state that is entered; the window follows the entry (R130). -/
theorem State.enter_consistent {s : State} {e : EngineState} (aim : s.engine.aim.isSome = e.isAim)
    (suspension : s.engine.suspension.isSome = decide (e = .suspended))
    (ranging : e = .ranging → s.engine.openObs.isSome = true)
    (openOnly : s.engine.openObs.isSome = true → e = .ranging ∨ e = .tracking) : (s.enter e).EngineConsistent :=
  ⟨by simpa using aim, by simpa using suspension, by simpa using ranging, by simpa using openOnly,
    by rw [State.enter_window, State.enter_state]⟩

section Consistent

variable {s : State} (h : s.EngineConsistent)
include h

theorem State.EngineConsistent.openObs_none (h1 : s.engine.state ≠ .ranging) (h2 : s.engine.state ≠ .tracking) :
    s.engine.openObs = none := by
  by_contra ho
  exact (h.open_only (Option.isSome_iff_ne_none.mpr ho)).elim h1 h2

theorem State.EngineConsistent.suspension_none (hs : s.engine.state ≠ .suspended) : s.engine.suspension = none := by
  have := h.suspension_present
  simpa [hs] using this

theorem State.EngineConsistent.empty (hs : s.engine.state.isAim = false) : s.engine.Empty := by
  have haim := h.aim_present
  refine ⟨by simpa [hs] using haim, h.suspension_none ?_, h.openObs_none ?_ ?_⟩
  all_goals rintro e; rw [e] at hs; cases hs

theorem State.EngineConsistent.seeking (hs : s.engine.state.beforeLock = true) : s.engine.Seeking := by
  have haim := h.aim_present
  have hrun : s.engine.state.isAim = true := by revert hs; cases s.engine.state <;> decide
  refine ⟨haim.trans hrun, h.suspension_none ?_, h.openObs_none ?_ ?_⟩
  all_goals rintro e; rw [e] at hs; cases hs

end Consistent

theorem Engine.Empty.enter {s : State} (h : s.engine.Empty) {e : EngineState} (he : e.isAim = false) :
    (s.enter e).EngineConsistent := by
  obtain ⟨haim, hsusp, hopen⟩ := h
  have hne : e ≠ .suspended ∧ e ≠ .ranging := by constructor <;> rintro rfl <;> cases he
  exact State.enter_consistent (by rw [haim, he]; rfl) (by simp [hsusp, hne.1]) (fun hr => absurd hr hne.2)
    (by simp [hopen])

theorem Engine.Seeking.enter {s : State} (h : s.engine.Seeking) {e : EngineState} (he : e.beforeLock = true) :
    (s.enter e).EngineConsistent := by
  obtain ⟨haim, hsusp, hopen⟩ := h
  have hne : e ≠ .suspended ∧ e ≠ .ranging := by constructor <;> rintro rfl <;> cases he
  have hrun : e.isAim = true := by revert he; cases e <;> decide
  exact State.enter_consistent (by rw [haim, hrun]) (by simp [hsusp, hne.1]) (fun hr => absurd hr hne.2)
    (by simp [hopen])

theorem Engine.Seeking.aim_ne_none {g : Engine} (h : g.Seeking) : g.aim ≠ none := Option.isSome_iff_ne_none.mp h.aim

theorem Engine.Seeking.onAim {s : State} (h : s.engine.Seeking) (f : Aim → Aim) : (s.onAim f).engine.Seeking := by
  obtain ⟨haim, hsusp, hopen⟩ := h
  exact ⟨by simpa using haim, hsusp, hopen⟩

/-! ### Updates that leave the records -/

variable (s : State)

theorem State.followLight_kept : s.EngineKept s.followLight :=
  .beside (by simp) (by rw [State.followLight_frame])

theorem State.respond_kept (code : Nat) (a : Answer) : s.EngineKept (s.respond code a) := .beside

theorem State.raise_kept (m : EventMark) : s.EngineKept (s.raise m) := .beside

theorem State.setRecord_kept (i : Nat) (r : Option TargetRecord) : s.EngineKept (s.setRecord i r) := .beside

theorem State.onDrive_kept (ax : Axis) (f : Drive → Drive) : s.EngineKept (s.onDrive ax f) := .beside (by simp) (by simp)

theorem State.onAim_kept (f : Aim → Aim) : s.EngineKept (s.onAim f) := .of_records rfl (by simp) rfl rfl rfl

theorem State.moveAxes_kept (x : Angles) : s.EngineKept (s.moveAxes x) := .of_records rfl Option.isSome_map rfl rfl rfl

theorem State.adjustAxes_kept (x : Angles) : s.EngineKept (s.adjustAxes x) := .beside (by simp) (by simp)

theorem State.offerFrame_kept (f : Frame) : s.EngineKept (s.offerFrame f) := .beside (by simp) (by simp)

theorem State.requestBreak_kept : s.EngineKept s.requestBreak := .beside (by simp) (by simp)

/-! ### The selection -/

theorem State.handOver_kept {s : State} (hw : s.engine.state = .waiting) (slot : Nat) (r : TargetRecord) (d : Direction) :
    s.EngineKept (s.handOver slot r d) := by
  intro h
  obtain ⟨-, hsusp, hopen⟩ := h.empty (by rw [hw]; rfl)
  have haimed : (s.aimedAt slot r d).EngineConsistent := by
    refine ⟨rfl, ?_, fun hr => (by cases hr), fun ho => ?_, State.enter_window _ .slewing⟩
    · simp [State.aimedAt, hsusp]
    · simp [State.aimedAt, hopen] at ho
  have hintent : (s.aimedAt slot r d).EngineKept ((s.aimedAt slot r d).offerIntent r d.sd) := .beside (by simp) (by simp)
  exact State.moveAxes_kept _ _ (hintent haimed)

section Waiting

variable {s : State} (hw : s.engine.state = .waiting)
include hw

theorem State.ordinaryPass_kept : s.EngineKept s.ordinaryPass := by
  have hlooked : s.EngineKept { s with table := s.lookedTable 0 s.table } := .beside
  unfold State.ordinaryPass
  dsimp only
  split
  · exact hlooked.trans (State.handOver_kept (s := { s with table := s.lookedTable 0 s.table }) hw _ _ _)
  · exact hlooked

theorem State.dropForced_kept : s.EngineKept s.dropForced.ordinaryPass :=
  .after (State.ordinaryPass_kept (s := s.dropForced) hw) .beside

theorem State.forcedIdle_kept (i : Nat) (r : TargetRecord) : s.EngineKept (s.forcedIdle i r) := by
  unfold State.forcedIdle
  split
  · exact .after (State.handOver_kept (s := { s with forced := none }) hw i r _) .beside
  · exact State.dropForced_kept hw

theorem State.selection_kept : s.EngineKept s.selection := by
  have hpass := State.ordinaryPass_kept hw
  have hdropped := State.dropForced_kept hw
  unfold State.selection
  split
  · exact hpass
  · split
    · exact hdropped
    · rename_i i _
      split
      · exact hdropped
      · rename_i r _
        split
        · exact hpass
        · exact .ite (fun _ => (s.setRecord_kept i _).trans
            (State.forcedIdle_kept (s := s.setRecord i (some r.returnIdle)) hw i _)) fun _ => hpass
        · exact State.forcedIdle_kept hw i r

end Waiting

theorem State.select_kept : s.EngineKept s.select :=
  .ite (fun hw => State.selection_kept hw.1) fun _ => .refl s

/-! ### Aims that end -/

/-- The end of an aim closes the open observation and discards the aim and its suspend record (R95). -/
theorem State.finishAim_empty (o : AimOutcome) (defer : Option Nat) : (s.finishAim o defer).engine.Empty := by
  unfold State.finishAim
  dsimp only
  split
  · exact ⟨rfl, rfl, by simp⟩
  · exact ⟨rfl, rfl, by simp⟩

theorem Engine.Empty.enterWaiting {s : State} (h : s.engine.Empty) : s.enterWaiting.EngineConsistent :=
  State.select_kept _ (h.enter rfl)

theorem State.endAim_consistent (o : AimOutcome) (defer : Option Nat) : (s.endAim o defer).EngineConsistent :=
  (s.finishAim_empty o defer).enterWaiting

theorem State.stopAim_consistent (o : AimOutcome) : (s.stopAim o).EngineConsistent :=
  (s.finishAim_empty o none).enter rfl

theorem State.enter_stopped_kept {s : State} (hw : s.engine.state = .waiting) : s.EngineKept (s.enter .stopped) :=
  fun h => (h.empty (by rw [hw]; rfl)).enter rfl

theorem State.engineFault_kept (ax : Axis) : s.EngineKept (s.engineFault ax) := by
  unfold State.engineFault
  split
  · exact .refl s
  · exact State.enter_stopped_kept ‹_›
  · exact fun _ => s.stopAim_consistent .faulted
  · exact fun _ => State.stopAim_consistent _ .faulted

theorem State.faultDrive_kept (ax : Axis) (code : FaultCode) : s.EngineKept (s.faultDrive ax code) :=
  .ite (fun _ => .refl s) fun _ =>
    (s.onDrive_kept ax _).trans <| (State.raise_kept _ .axisFault).trans (State.engineFault_kept _ ax)

/-! ### Attempts, search positions and the slew -/

section Seeking

variable {s : State} (h : s.engine.Seeking)
include h

theorem Engine.Seeking.endAttempt (lost : Bool) : (s.endAttempt lost).EngineConsistent := by
  unfold State.endAttempt
  split
  · exact absurd ‹_› h.aim_ne_none
  · split
    · exact s.endAim_consistent .missed none
    · exact State.moveAxes_kept _ _ ((h.onAim _).enter rfl)

theorem Engine.Seeking.searchAt (index : Nat) : (s.searchAt index).EngineConsistent := by
  unfold State.searchAt
  split
  · exact absurd ‹_› h.aim_ne_none
  · exact State.moveAxes_kept _ _ ((h.onAim _).enter rfl)

theorem Engine.Seeking.countWindow : s.EngineKept s.countWindow := by
  unfold State.countWindow
  split
  · exact .refl s
  · have hcounted := s.onAim_kept fun x => { x with dwellCount := x.dwellCount + 1 }
    have hseeking := h.onAim fun x => { x with dwellCount := x.dwellCount + 1 }
    exact .ite
      (fun _ => .ite (fun _ => hcounted) fun _ =>
        .ite (fun _ _ => hseeking.endAttempt false) fun _ _ => hseeking.searchAt _)
      fun _ => .ite (fun _ => hcounted) fun _ =>
        .ite (fun _ _ => hseeking.endAttempt false) fun _ _ => hseeking.searchAt _

theorem Engine.Seeking.enterAcquiring : s.enterAcquiring.EngineConsistent := (h.onAim _).enter rfl

theorem Engine.Seeking.slewEnd : s.EngineKept s.slewEnd := by
  unfold State.slewEnd
  split
  · exact .refl s
  · split
    · exact fun _ => h.enterAcquiring
    · exact .ite (fun _ => (s.onAim_kept _).trans <| (State.onAim_kept _ _).trans (State.moveAxes_kept _ _))
        fun _ _ => (h.onAim _).enterAcquiring

/-! ### Lock and windows -/

theorem Engine.Seeking.chanceObservation (code : Nat) (x : Angles) : (s.chanceObservation code x).engine.Seeking := by
  obtain ⟨haim, hsusp, hopen⟩ := h
  unfold State.chanceObservation
  split
  · exact ⟨haim, hsusp, hopen⟩
  · rw [State.giveObservation_engine]
    exact ⟨haim, hsusp, hopen⟩

theorem Engine.Seeking.wrongPrism (w : WindowReport) : (s.wrongPrism w).EngineConsistent := by
  unfold State.wrongPrism
  split
  · exact (h.chanceObservation _ _).endAttempt false
  · exact h.endAttempt false

/-- The lock opens an observation, for TRACKING or RANGING (R87, R88). -/
theorem Engine.Seeking.lock (x : Angles) : (s.lock x).EngineConsistent := by
  unfold State.lock
  split
  · exact absurd ‹_› h.aim_ne_none
  · rename_i a ha
    dsimp only
    split
    all_goals
      refine State.enter_consistent ?_ ?_ (fun _ => ?_) fun _ => ?_ <;>
        simp [State.openObservation, ha, h.suspension, EngineState.isAim]

theorem Engine.Seeking.centringOwn (w : WindowReport) : s.EngineKept (s.centringOwn w) := by
  unfold State.centringOwn
  split
  · exact .refl s
  · have hadjusted : (s.adjustAxes w.angles).engine.Seeking := by rwa [State.adjustAxes_engine]
    exact .ite (fun _ _ => (hadjusted.onAim _).lock _) fun _ => (s.adjustAxes_kept _).trans (State.onAim_kept _ _)

theorem Engine.Seeking.searchWindow (a : Aim) (w : WindowReport) : s.EngineKept (s.searchWindow a w) := by
  refine .ite (fun _ => .ite (fun _ _ => h.wrongPrism w) fun _ _ => ?_) fun _ => h.countWindow
  have hcentring : ((s.onAim Aim.clearMarks).enter .centring).EngineConsistent := (h.onAim _).enter rfl
  exact (hcentring.seeking (by rw [State.enter_state]; rfl)).centringOwn w hcentring

theorem Engine.Seeking.centringWindow (a : Aim) (w : WindowReport) : s.EngineKept (s.centringWindow a w) := by
  have hlost : s.EngineKept
      (let s1 := s.onAim fun x => { x with inTolerance := 0, mixed := 0, nonOwn := x.nonOwn + 1 }
       if 3 ≤ a.nonOwn + 1 then s1.endAttempt true else s1) :=
    .ite (fun _ _ => (h.onAim _).endAttempt true) fun _ => s.onAim_kept _
  unfold State.centringWindow
  split
  · exact .ite (fun _ _ => h.wrongPrism w) fun _ => h.centringOwn w
  · exact .ite (fun _ _ => State.endAim_consistent _ .yielded _) fun _ =>
      .ite (fun _ _ => (h.onAim _).endAttempt false) fun _ => s.onAim_kept _
  all_goals exact hlost

end Seeking

theorem State.beginDwell_kept {s : State} (hs : s.engine.state = .searching) : s.EngineKept s.beginDwell := by
  intro h
  exact State.EngineKept.of_records (s := s) (t := s.beginDwell) rfl rfl rfl rfl (by rw [h.window_present, hs]; rfl) h

theorem State.takeArrived_kept (ax : Axis) : s.EngineKept (s.takeArrived ax) := by
  intro h
  unfold State.takeArrived
  split
  · exact h
  · refine EngineKept.ite (fun _ => .refl s) (fun hs => ?_) h
    have hphase : s.engine.state = .slewing ∨ s.engine.state = .searching := by
      by_contra hno
      exact hs (not_or.mp hno)
    have hseeking : s.engine.Seeking := h.seeking (by rcases hphase with e | e <;> rw [e] <;> rfl)
    have harrived := s.onAim_kept fun x => match ax with
      | .hz => { x with awaitHz := false }
      | .vt => { x with awaitVt := false }
    refine .ite (fun _ => .refl s) fun _ => .ite (fun _ => harrived) fun _ => harrived.trans ?_
    exact .ite (fun _ => (hseeking.onAim _).slewEnd) fun hslew => State.beginDwell_kept (hphase.resolve_left hslew)

theorem State.trackingWindow_kept (a : Aim) (w : WindowReport) : s.EngineKept (s.trackingWindow a w) :=
  .ite (fun _ => (s.adjustAxes_kept _).trans (State.onAim_kept _ _)) fun _ =>
    .ite (fun _ => .ite (fun _ _ => State.endAim_consistent _ .yielded _) fun _ => s.onAim_kept _) fun _ =>
      .ite (fun _ _ => State.endAim_consistent _ .trackLost none) fun _ => s.onAim_kept _

theorem State.takeWindow_kept (w : WindowReport) : s.EngineKept (s.takeWindow w) := by
  intro h
  unfold State.takeWindow
  split
  · exact h
  · rename_i a _
    cases hs : s.engine.state with
    | acquiring => exact (h.seeking (by rw [hs]; rfl)).searchWindow a w h
    | searching => exact EngineKept.ite (fun _ => (h.seeking (by rw [hs]; rfl)).searchWindow a w) (fun _ => .refl s) h
    | centring => exact (h.seeking (by rw [hs]; rfl)).centringWindow a w h
    | ranging => exact EngineKept.ite (fun _ => s.adjustAxes_kept _) (fun _ => .refl s) h
    | tracking => exact s.trackingWindow_kept a w h
    | stopped | waiting | slewing | suspended => exact h

/-! ### Suspension and the site hold -/

theorem State.closeObservation_none_engine :
    (s.closeObservation none true).engine = { s.engine with openObs := none } := by
  rw [State.closeObservation_none_frame]

theorem State.suspendAim_kept : s.EngineKept s.suspendAim := by
  intro h
  unfold State.suspendAim
  split
  · rename_i hrun
    have haim : s.engine.aim.isSome = true := by
      rw [h.aim_present]
      exact (Bool.and_eq_true_iff.mp hrun).1
    refine State.enter_consistent ?_ ?_ (fun hr => by cases hr) ?_ <;>
      simp [s.closeObservation_none_engine, haim, EngineState.isAim]
  · exact h

/-- The aim of a suspended engine, its suspend record dropped (R103). -/
theorem State.EngineConsistent.resumes {s : State} (h : s.EngineConsistent) (hs : s.engine.state = .suspended) :
    ({ s.engine with suspension := none } : Engine).Seeking :=
  ⟨by rw [h.aim_present, hs]; rfl, rfl, h.openObs_none (by rw [hs]; decide) (by rw [hs]; decide)⟩

theorem State.resumeAim_kept {s : State} (hs : s.engine.state = .suspended) (u : Suspension) (r : TargetRecord)
    (d : Direction) : s.EngineKept (s.resumeAim u r d) := by
  intro h
  have hseeking : ({ s with engine := { s.engine with suspension := none } } : State).engine.Seeking := h.resumes hs
  unfold State.resumeAim
  exact EngineKept.ite (fun _ _ => (hseeking.onAim _).searchAt _)
    (fun _ _ => State.moveAxes_kept _ _ ((hseeking.onAim _).enter rfl)) h

theorem State.tryResume_kept : s.EngineKept s.tryResume := by
  unfold State.tryResume
  refine .ite (fun hc => ?_) fun _ => .refl s
  split
  · refine .ite (fun _ _ => s.endAim_consistent .abandoned none) fun _ => ?_
    split
    · intro h
      have hopen := h.openObs_none (by rw [hc.1]; decide) (by rw [hc.1]; decide)
      exact Engine.Empty.enterWaiting ⟨rfl, rfl, hopen⟩
    · split
      · exact State.resumeAim_kept hc.1 _ _ _
      · split
        · exact fun _ => s.endAim_consistent _ none
        · exact fun _ => s.endAim_consistent .abandoned none
  · exact .refl s

theorem State.holdBegins_kept : s.EngineKept s.holdBegins :=
  (s.raise_kept .holdChanged).trans <| (State.suspendAim_kept _).trans <|
    (State.onDrive_kept _ .hz _).trans (State.onDrive_kept _ .vt _)

theorem State.holdEnds_kept : s.EngineKept s.holdEnds :=
  (s.raise_kept .holdChanged).trans <| (State.onDrive_kept _ .hz _).trans <| (State.onDrive_kept _ .vt _).trans <|
    (State.select_kept _).trans (State.tryResume_kept _)

theorem State.signalHold_kept (before : Bool) : s.EngineKept (s.signalHold before) := by
  rcases s.signalHold_cases before with ⟨-, -, he⟩ | ⟨-, -, he⟩ | ⟨-, he⟩ <;> rw [he]
  · exact s.holdBegins_kept
  · exact s.holdEnds_kept
  · exact .refl s

theorem State.withHold_kept {change : State → State} (h : s.EngineKept (change s)) : s.EngineKept (s.withHold change) :=
  h.trans (State.signalHold_kept _ _)

theorem State.holdInRises_kept : s.EngineKept s.holdInRises :=
  .trans (s.withHold_kept .beside) (State.requestBreak_kept _)

theorem State.settled_kept (ax : Axis) : s.EngineKept (s.settled ax) := by
  have hmarked : s.EngineKept { s with axesReadyRaised := true } := .beside
  exact .ite
    (fun _ => .after (State.tryResume_kept _)
      (.ite (fun _ => hmarked.trans (State.raise_kept _ .axesReady)) fun _ => .refl s))
    fun _ => .refl s

end Sys2Proof.Machine

namespace Sys2Proof.Machine

open Sys2Proof
open Host (Outcome)

variable (s : State)

/-! ### The line and the peers, beside the engine -/

theorem State.lineCharacter_engine (c : LineChar) :
    (s.lineCharacter c).engine = s.engine ∧ (s.lineCharacter c).light = s.light := by
  unfold State.lineCharacter State.takeEcho State.endCharacter
  constructor <;> (repeat' split) <;> simp [State.atMarkFrom_eq, State.tookChoice]

theorem State.deferRequest_kept (prism t : Nat) : s.EngineKept (s.deferRequest prism t) := by
  unfold State.deferRequest
  split
  · exact .refl s
  · split
    · exact .refl s
    · exact .ite (fun _ _ => s.endAim_consistent .yielded _) fun _ => (s.setRecord_kept _ _).trans (State.select_kept _)

theorem State.offerPeerFix_kept (station prism : Nat) (pos : Grid) (quality age : Nat) :
    s.EngineKept (s.offerPeerFix station prism pos quality age) := by
  unfold State.offerPeerFix
  split
  · exact .refl s
  · split
    · exact .refl s
    · split
      · exact .refl s
      · split
        · exact .refl s
        · exact (s.setRecord_kept _ _).trans (State.select_kept _)

theorem State.compareIntent_kept (sender prism distance hold : Nat) :
    s.EngineKept (s.compareIntent sender prism distance hold) := by
  unfold State.compareIntent
  split
  · exact .refl s
  · exact .ite (fun _ => s.deferRequest_kept prism _) fun _ => .refl s

theorem State.onPeers_kept (f : List (Option Peer) → List (Option Peer)) : s.EngineKept (s.onPeers f) := .beside

theorem State.takeFrame_kept (sender : Nat) (frame : Received) : s.EngineKept (s.takeFrame sender frame) := by
  cases frame with
  | presence run pos => exact s.onPeers_kept _
  | sighting prism pos quality age => exact (s.onPeers_kept _).trans (State.offerPeerFix_kept _ _ _ _ _ _)
  | intent prism distance hold => exact (s.onPeers_kept _).trans (State.compareIntent_kept _ _ _ _ _)

theorem State.forceListenOnly_kept : s.EngineKept s.forceListenOnly := by
  unfold State.forceListenOnly
  dsimp only
  split <;> exact .beside

theorem State.endFrame_kept : s.EngineKept s.endFrame := by
  have hidle : s.EngineKept { s with line := { s.line with receiver := .idle, assembler := [] } } := .beside
  unfold State.endFrame
  dsimp only
  split
  · exact hidle
  · split
    · exact hidle
    · exact hidle.trans (.after (State.forceListenOnly_kept _) .beside)
    · exact hidle.trans (State.takeFrame_kept _ _ _)

theorem State.offerPresence_kept : s.EngineKept s.offerPresence := (s.offerFrame_kept _).trans .beside

/-! ### The host commands -/

/-- Every way a host command is taken keeps the engine's records with its state where its own rule does. -/
theorem State.takeCommand_kept {α : Type} {c : CommandCode} {args : Option α} {rule : α → State → Taken}
    (h : ∀ a, s.EngineKept (rule a s).state) : s.EngineKept (s.takeCommand c args rule) := by
  rcases s.takeCommand_cases c args rule with ⟨-, he⟩ | ⟨-, -, he⟩ | ⟨-, -, -, -, he⟩ | ⟨a, -, -, -, he⟩ <;> rw [he]
  · exact s.respond_kept _ _
  · exact s.respond_kept _ _
  · exact s.respond_kept _ _
  · exact (h a).trans (State.respond_kept _ _ _)

theorem configureRule_kept (a : ConfigureArgs) : s.EngineKept (configureRule a s).state := by
  unfold configureRule
  split
  · exact .refl s
  · split
    · exact .refl s
    · exact .after (State.offerPresence_kept _) .beside

theorem setStationRule_kept (a : StationArgs) : s.EngineKept (setStationRule a s).state := by
  unfold setStationRule
  split
  · exact .refl s
  · split
    · exact .refl s
    · exact .beside

theorem loadTargetRule_kept (a : LoadArgs) : s.EngineKept (loadTargetRule a s).state := by
  unfold loadTargetRule
  split
  · exact .refl s
  · split
    · exact .refl s
    · split
      · exact .refl s
      · split
        · exact .refl s
        · exact (s.setRecord_kept _ _).trans (State.select_kept _)

theorem editTargetRule_kept (a : EditArgs) : s.EngineKept (editTargetRule a s).state := by
  unfold editTargetRule
  split
  · exact .refl s
  · split
    · exact .refl s
    · exact (s.setRecord_kept _ _).trans (State.select_kept _)

/-- A retirement from an aim state leaves no record of the engine, from which a selection is made (R99). -/
theorem State.retireAim_kept (i : Nat) : s.EngineKept (s.retireAim i) := by
  intro h
  by_cases hs : s.engine.state = .suspended
  · rw [State.retireAim_suspended hs]
    have hopen := h.openObs_none (by rw [hs]; decide) (by rw [hs]; decide)
    exact Engine.Empty.enterWaiting (s := (s.setRecord i none).discardAim) ⟨rfl, rfl, hopen⟩
  · rw [State.retireAim_running hs]
    exact Engine.Empty.enterWaiting (s := (((s.closeObservation none false).stopAxes).setRecord i none).discardAim)
      ⟨rfl, rfl, by simp⟩

theorem retireTargetRule_kept (prism : Nat) : s.EngineKept (retireTargetRule prism s).state := by
  unfold retireTargetRule
  split
  · exact .refl s
  · split
    · exact .refl s
    · split
      · exact s.retireAim_kept _
      · exact s.setRecord_kept _ _

theorem setSectorRule_kept (a : SectorArgs) : s.EngineKept (setSectorRule a s).state := by
  unfold setSectorRule
  split
  · exact .refl s
  · split
    · exact .refl s
    · split
      · exact .refl s
      · exact .after (State.select_kept _) .beside

theorem runRule_kept (u : Unit) : s.EngineKept (runRule u s).state := by
  unfold runRule
  split
  · rename_i hs
    split
    · exact fun h => (h.empty (by rw [hs]; rfl)).enterWaiting
    · exact .refl s
  · exact .refl s

theorem State.pauseEngine_kept : s.EngineKept s.pauseEngine := by
  unfold State.pauseEngine
  split
  · exact .refl s
  · exact State.enter_stopped_kept ‹_›
  · exact fun _ => s.stopAim_consistent .aborted
  · exact fun _ => State.stopAim_consistent _ .aborted

theorem aimNowRule_kept (prism : Nat) : s.EngineKept (aimNowRule prism s).state := by
  unfold aimNowRule
  split
  · exact .refl s
  · split
    · exact .refl s
    · split
      · exact .refl s
      · split
        · exact .refl s
        · exact .after (State.select_kept _) .beside

/-- Out of RANGING an open observation may be closed, which leaves TRACKING with none (R93, R94). -/
theorem State.closeObservation_kept {s : State} (hs : s.engine.state ≠ .ranging) (range : Option Nat) (offers : Bool) :
    s.EngineKept (s.closeObservation range offers) := by
  rintro ⟨haim, hsusp, -, -, hwindow⟩
  have hrecords : (s.closeObservation range offers).engine.aim.isSome = s.engine.aim.isSome ∧
      (s.closeObservation range offers).engine.suspension = s.engine.suspension := by
    unfold State.closeObservation
    split
    · exact ⟨rfl, rfl⟩
    · dsimp only
      constructor <;> (repeat' split) <;> simp [State.dropOpen]
  refine ⟨?_, ?_, fun hr => ?_, fun ho => ?_, ?_⟩
  · rw [hrecords.1, State.closeObservation_state, haim]
  · rw [hrecords.2, State.closeObservation_state, hsusp]
  · rw [State.closeObservation_state] at hr
    exact absurd hr hs
  · rw [State.closeObservation_openObs] at ho
    cases ho
  · rw [State.closeObservation_light, State.closeObservation_state, hwindow]

theorem rangeRule_kept (a : RangeArgs) : s.EngineKept (rangeRule a s).state := by
  unfold rangeRule
  split
  · exact .refl s
  · split
    · exact .ite (fun _ _ => State.endAim_consistent _ .observed none) fun hs => State.closeObservation_kept hs _ _
    · exact .refl s

theorem State.clearFaultOf_kept (ax : Axis) : s.EngineKept (s.clearFaultOf ax) :=
  .ite (fun _ => (s.onDrive_kept ax _).trans (State.faultDrive_kept _ ax .overcurrent)) fun _ => s.onDrive_kept ax _

theorem clearFaultRule_kept (axis : Nat) : s.EngineKept (clearFaultRule axis s).state := by
  unfold clearFaultRule
  split
  · exact .refl s
  · rename_i h v _
    have hhz := State.EngineKept.ite (c := h = true) (fun _ => s.clearFaultOf_kept .hz) fun _ => .refl s
    exact .ite (fun _ => hhz.trans (State.clearFaultOf_kept _ .vt)) fun _ => hhz

/-- After either reset the engine is STOPPED with nothing (R73, R104), and no window is made (R141). -/
theorem State.consistent_of_reset {t : State} (engine : t.engine = Engine.reset) (window : t.light.window = none) :
    t.EngineConsistent := by
  constructor <;> simp [engine, window, Engine.reset, EngineState.isAim, EngineState.makesWindows]

theorem execPowerOnReset_kept (holdIn : Bool) {t : State} (h : execPowerOnReset holdIn s = .next t) :
    s.EngineKept t := by
  cases h
  have hreset : s.EngineKept { State.reset with
      hz := { Drive.reset with bridgeFault := s.hz.bridgeFault }
      vt := { Drive.reset with bridgeFault := s.vt.bridgeFault }
      choices := s.choices + 1
      pending := s.pending } := fun _ => State.consistent_of_reset rfl rfl
  exact .ite (fun _ => hreset.trans (State.holdInRises_kept _)) fun _ => hreset

theorem execResponseRead_kept (count : Nat) {t : State} (h : execResponseRead count s = .next t) : s.EngineKept t := by
  cases h
  split
  · exact .refl s
  · exact .ite (fun _ => .refl s) fun _ => .beside

/-! ### The events at the timers, the drives and the optics -/

/-- Where the outcome is a next state, the engine's records are kept with its state in it. -/
def State.EngineKeptNext (s : State) (o : Outcome State Fault Refusal) : Prop := ∀ t, o = .next t → s.EngineKept t

variable {s}

theorem State.EngineKept.next {t : State} (h : s.EngineKept t) : s.EngineKeptNext (.next t) := by
  rintro u ⟨⟩
  exact h

theorem State.EngineKept.lit {t : State} (h : s.EngineKept t) : s.EngineKeptNext (lit t) :=
  (h.trans t.followLight_kept).next

variable (s)

theorem execDueTimeExpiry_kept (i : Nat) : s.EngineKeptNext (execDueTimeExpiry i s) := by
  refine .next ?_
  split
  · exact .refl s
  · exact .ite (fun _ => (s.setRecord_kept _ _).trans (State.select_kept _)) fun _ => .refl s

theorem execDeferUntilExpiry_kept (i : Nat) : s.EngineKeptNext (execDeferUntilExpiry i s) := by
  refine .next ?_
  split
  · exact .refl s
  · exact .ite (fun _ => (s.setRecord_kept _ _).trans (State.select_kept _)) fun _ => .refl s

theorem State.aimExpires_state {s : State} {e : EngineState} {deadline : Aim → Option Nat}
    (h : s.aimExpires e deadline = true) : s.engine.state = e :=
  of_decide_eq_true (Bool.and_eq_true_iff.mp h).1

/-- A sample is taken in TRACKING, where an observation may be open or not (R91). -/
theorem State.takeSample_kept {s : State} (hs : s.engine.state = .tracking) : s.EngineKept s.takeSample := by
  have hnext := s.onAim_kept fun a => { a with nextSample := a.nextSample.map (· + 100) }
  unfold State.takeSample
  dsimp only
  split
  · exact hnext
  · split
    · have hclosed := State.closeObservation_kept
        (s := s.onAim fun a => { a with nextSample := a.nextSample.map (· + 100) })
        (by rw [State.onAim_state, hs]; decide) none true
      refine (hnext.trans hclosed).trans (.trans ?_ (State.onAim_kept _ _))
      rintro ⟨haim, hsusp, hrange, -, hwindow⟩
      unfold State.openObservation
      split
      · exact ⟨haim, hsusp, hrange, by simp, hwindow⟩
      · rename_i b hb
        exact ⟨hb ▸ haim, hsusp, fun _ => rfl, fun _ => .inr (by simpa using hs), hwindow⟩
    · exact hnext

/-- At the end of the dwell an open observation goes on in RANGING, and without one the aim ends (R92). -/
theorem State.endDwell_kept {s : State} (hs : s.engine.state = .tracking) : s.EngineKept s.endDwell := by
  intro h
  have haim : s.engine.aim.isSome = true := by rw [h.aim_present, hs]; rfl
  have hsusp : s.engine.suspension = none := h.suspension_none (by rw [hs]; decide)
  unfold State.endDwell
  dsimp only
  split
  · rename_i o ho
    refine State.enter_consistent ?_ ?_ (fun _ => ?_) (fun _ => .inl rfl) <;>
      simp [haim, hsusp, ho, EngineState.isAim]
  · exact State.endAim_consistent _ .observed none

theorem State.readAxis_kept (ax : Axis) (raw : Int) : s.EngineKept (s.readAxis ax raw) := s.onDrive_kept ax _

theorem State.arrivals_kept (ax : Axis) : s.EngineKept (s.arrivals ax) :=
  .ite (fun _ => (s.onDrive_kept ax _).trans (State.takeArrived_kept _ ax)) fun _ =>
    .ite (fun _ => (s.onDrive_kept ax _).trans (State.takeArrived_kept _ ax)) fun _ => .refl s

theorem State.limitFault_kept (ax : Axis) : s.EngineKept (s.limitFault ax) :=
  (s.onDrive_kept ax _).trans (State.faultDrive_kept _ ax .limit)

theorem State.pairComplete_kept (ax : Axis) (mid : Int) : s.EngineKept (s.pairComplete ax mid) := by
  have hset : s.EngineKept { s.onDrive ax (Drive.setIndex ax mid s.clock) with axesReadyRaised := false } :=
    (s.onDrive_kept ax _).trans .beside
  exact .ite (fun _ => hset.trans (State.limitFault_kept _ ax)) fun _ => hset

theorem execIndexEdge_kept (ax : Axis) (rising : Bool) (raw rest : Int) :
    s.EngineKeptNext (execIndexEdge ax rising raw rest s) := by
  have hread := s.readAxis_kept ax raw
  refine .lit (.ite (fun _ => .ite (fun _ => hread.trans (State.onDrive_kept _ ax _)) fun _ => hread) fun _ => ?_)
  split
  · exact hread.trans <| (State.readAxis_kept _ ax rest).trans (State.pairComplete_kept _ ax _)
  · exact hread

theorem execProgressIntervalEnd_kept (ax : Axis) (raw : Int) : s.EngineKeptNext (execProgressIntervalEnd ax raw s) := by
  have hread := s.readAxis_kept ax raw
  refine .lit ?_
  split
  · exact hread
  · exact .ite (fun _ => hread.trans (State.faultDrive_kept _ ax .stall)) fun _ =>
      hread.trans (State.onDrive_kept _ ax _)

/-- The end of a window begins the next one (R130), and the report goes to the engine. -/
theorem State.endWindow_kept {s : State} {w : Window} (hw : s.light.window = some w) : s.EngineKept (s.endWindow w) := by
  have hwindow : ∀ last, s.EngineKept { s with light := { s.light with window := some (nextWindow w), last := last } } :=
    fun last => .of_records rfl rfl rfl rfl (by rw [hw]; rfl)
  unfold State.endWindow
  split
  · exact (hwindow _).trans (State.takeWindow_kept _ _)
  · exact hwindow _

theorem execWindowEnd_kept (hzRaw vtRaw : Int) : s.EngineKeptNext (execWindowEnd hzRaw vtRaw s) := by
  have hread := (s.readAxis_kept .hz hzRaw).trans (State.readAxis_kept _ .vt vtRaw)
  refine .lit ?_
  split
  · exact .ite (fun _ => hread.trans (State.endWindow_kept ‹_›)) fun _ => hread
  · exact hread

theorem State.onWindow_kept (f : Window → Window) : s.EngineKept (s.onWindow f) :=
  .of_records rfl rfl rfl rfl Option.isSome_map

/-! ### Every command, and the step -/

/-- Every command keeps the engine's records with its state. -/
theorem exec_kept (c : Instr) : s.EngineKeptNext (exec c s) :=
  match c with
  | .powerOnReset holdIn => fun _ => execPowerOnReset_kept s holdIn
  | .configure _ => .lit (s.takeCommand_kept (configureRule_kept s))
  | .setStation _ => .lit (s.takeCommand_kept (setStationRule_kept s))
  | .loadTarget _ => .next (s.takeCommand_kept (loadTargetRule_kept s))
  | .editTarget _ => .next (s.takeCommand_kept (editTargetRule_kept s))
  | .retireTarget _ => .lit (s.takeCommand_kept (retireTargetRule_kept s))
  | .readTarget _ => .next (s.takeCommand_kept fun k => .of_eq (readTargetRule_state s k))
  | .setSector _ => .lit (s.takeCommand_kept (setSectorRule_kept s))
  | .readSector _ => .next (s.takeCommand_kept fun a => .of_eq (readSectorRule_state s a))
  | .run _ => .next (s.takeCommand_kept (runRule_kept s))
  | .pause _ => .lit (s.takeCommand_kept fun _ => s.pauseEngine_kept)
  | .aimNow _ => .next (s.takeCommand_kept (aimNowRule_kept s))
  | .range _ => .lit (s.takeCommand_kept (rangeRule_kept s))
  | .takeObservation _ => .next (s.takeCommand_kept fun u => .of_eq (takeObservationRule_state s u))
  | .readStatus _ => .next (s.takeCommand_kept fun _ => .refl s)
  | .readPeers _ => .next (s.takeCommand_kept fun _ => .refl s)
  | .ackEvents _ => .next (s.takeCommand_kept fun _ => .beside)
  | .clearFault _ => .lit (s.takeCommand_kept (clearFaultRule_kept s))
  | .siteHold _ => .next (s.takeCommand_kept fun _ => s.requestBreak_kept)
  | .reset _ => .next (s.takeCommand_kept fun _ _ => State.consistent_of_reset rfl rfl)
  | .unknownCommand _ => .next (s.respond_kept _ _)
  | .responseRead count => fun _ => execResponseRead_kept s count
  | .dueTimeExpiry i => execDueTimeExpiry_kept s i
  | .deferUntilExpiry i => execDeferUntilExpiry_kept s i
  | .arrived ax raw => .lit ((s.readAxis_kept ax raw).trans (State.arrivals_kept _ ax))
  | .fineArrival ax raw =>
    .lit (.ite (fun _ => (s.readAxis_kept ax raw).trans (State.onDrive_kept _ ax _)) fun _ => s.readAxis_kept ax raw)
  | .windowEnd hzRaw vtRaw => execWindowEnd_kept s hzRaw vtRaw
  | .trackSample => .next (.ite (fun h => State.takeSample_kept (State.aimExpires_state h)) fun _ => .refl s)
  | .trackDwellExpiry => .lit (.ite (fun h => State.endDwell_kept (State.aimExpires_state h)) fun _ => .refl s)
  | .rangingWaitExpiry => .lit (.ite (fun _ _ => s.endAim_consistent .observed none) fun _ => .refl s)
  | .blockDecay => .next (.ite (fun _ => .beside) fun _ => .refl s)
  | .abandonDeadlineExpiry => .lit (.ite (fun _ _ => s.endAim_consistent .abandoned none) fun _ => .refl s)
  | .settleEnd ax raw =>
    .lit (.ite
      (fun _ => (s.readAxis_kept ax raw).trans <| (State.onDrive_kept _ ax _).trans (State.settled_kept _ ax))
      fun _ => s.readAxis_kept ax raw)
  | .indexEdge ax rising raw rest => execIndexEdge_kept s ax rising raw rest
  | .vtSeekReversal raw =>
    .lit (.ite (fun _ => (s.readAxis_kept .vt raw).trans (State.onDrive_kept _ .vt _)) fun _ => s.readAxis_kept .vt raw)
  | .seekTravelExhausted ax raw =>
    .lit (.ite (fun _ => (s.readAxis_kept ax raw).trans (State.faultDrive_kept _ ax .indexMissing))
      fun _ => s.readAxis_kept ax raw)
  | .progressIntervalEnd ax raw => execProgressIntervalEnd_kept s ax raw
  | .bridgeFaultInput ax _ =>
    .lit (.ite (fun _ => (s.onDrive_kept ax _).trans (State.faultDrive_kept _ ax .overcurrent))
      fun _ => s.onDrive_kept ax _)
  | .vtLimitCrossing raw =>
    .lit (.ite (fun _ => (s.readAxis_kept .vt raw).trans (State.limitFault_kept _ .vt)) fun _ => s.readAxis_kept .vt raw)
  | .hzSectorCrossing raw => .lit (s.readAxis_kept .hz raw)
  | .returnPulse _ => .next (s.onWindow_kept _)
  | .identityCode _ _ => .next (s.onWindow_kept _)
  | .receiveCharacter c => .next (.beside (s.lineCharacter_engine c).1 (by rw [(s.lineCharacter_engine c).2]))
  | .frameEnd => .lit (.ite (fun _ => s.endFrame_kept) fun _ => .refl s)
  | .breakBegin => .lit (.ite (fun _ => .refl s) fun _ => s.withHold_kept .beside)
  | .breakEnd => .lit (.ite (fun _ => s.withHold_kept .beside) fun _ => .refl s)
  | .accessGapExpiry => .next (.ite (fun _ => by unfold State.beginSend; split <;> exact .beside) fun _ => .refl s)
  | .echoCharacter c => .next (.beside (s.lineCharacter_engine c).1 (by rw [(s.lineCharacter_engine c).2]))
  | .echoTimeout => .next (.ite (fun _ => .beside) fun _ => .refl s)
  | .breakRelease => .next (.ite (fun _ => .beside (by simp) (by simp)) fun _ => .refl s)
  | .peerRecordExpiry _ => .next (s.onPeers_kept _)
  | .intentExpiry _ => .next (s.onPeers_kept _)
  | .presenceDeadline => .next (.ite (fun _ => s.offerPresence_kept) fun _ => .refl s)
  | .holdInRising => .lit (.ite (fun _ => .refl s) fun _ => s.holdInRises_kept)
  | .holdInFalling => .lit (.ite (fun _ => s.withHold_kept .beside) fun _ => .refl s)
  | .repeatDeadlineExpiry =>
    .next (.ite (fun _ => .after (State.requestBreak_kept _) .beside) fun _ => .refl s)
  | .holdDeadlineExpiry => .lit (.ite (fun _ => s.withHold_kept .beside) fun _ => .refl s)
  | .startBit => .next (.ite (fun _ => .refl s) fun _ => .beside)

theorem State.idle_kept : s.EngineKept s.idle := by
  unfold State.idle
  split <;> exact .beside

theorem step_kept : s.EngineKeptNext (step s) := by
  unfold step
  split
  · exact s.idle_kept.next
  · rename_i c rest _
    exact fun t ht => .after (exec_kept { s with pending := rest } c t ht) .beside

/-- Settles O7: an entry makes the window fit the state entered (`enter_consistent`), and each operation enters a state
that the engine's records fit. -/
theorem stepKeepsEngineConsistent : Obligations.StepKeepsEngineConsistent := fun s t hs hstep => step_kept s t hstep hs

end Sys2Proof.Machine

namespace Sys2Proof.Machine

open Sys2Proof

/-! ### The state right after reset -/

theorem State.reset_activeMatches : State.reset.ActiveMatches := by
  refine ⟨fun i r hr => ?_, fun a ha => (by cases ha), fun a u ha => (by cases ha)⟩
  exact absurd (List.mem_of_getElem? hr) (by simp [State.reset])

theorem State.reset_sized : State.reset.Sized :=
  ⟨List.length_replicate, List.length_replicate, List.length_replicate, Nat.zero_le 16, Nat.zero_le 4,
    show 0 < finePerMs by decide⟩

theorem State.reset_tablesLawful : State.reset.TablesLawful := by
  have hfree : ∀ (i : Nat) (r : TargetRecord), State.reset.table[i]? ≠ some (some r) := fun i r hr =>
    absurd (List.mem_of_getElem? hr) (by simp [State.reset])
  refine ⟨fun i j r q h => absurd h (hfree i r), fun i j r q h => absurd h (hfree i r), fun r h => ?_, fun e he => ?_,
    Nat.zero_le 1, Nat.zero_le 1, fun _ => Nat.zero_le 1⟩
  · obtain ⟨i, hi⟩ := List.mem_iff_getElem?.mp h
    exact absurd hi (hfree i r)
  · obtain rfl : e = Sector.reset := List.eq_of_mem_replicate he
    exact Nat.zero_le 15

/-- Settles O3: no light is wanted and no hold is in force, and the tables, the queues and the engine are empty. -/
theorem resetMeetsInvariants : Obligations.ResetMeetsInvariants :=
  ⟨rfl, fun hheld => (by cases hheld), ⟨Drive.reset_consistent, Drive.reset_consistent⟩,
    State.consistent_of_reset rfl rfl, State.reset_activeMatches, State.reset_sized, State.reset_tablesLawful⟩

/-! ### RUN -/

theorem exec_run_ready {s : State} (h : s.LinkReady) : exec (.run true) s =
    .next ((runRule () s).state.respond 9 (runRule () s).answer) :=
  congrArg _ (State.takeCommand_ready h .run () runRule)

section Run

variable {s : State}

theorem runRule_running (hs : s.engine.state ≠ .stopped) : runRule () s = ⟨.ok .none, s⟩ := if_neg hs

theorem runRule_notReady (hs : s.engine.state = .stopped)
    (h : s.setup = none ∨ s.hz.state ≠ .ready ∨ s.vt.state ≠ .ready) : runRule () s = s.refuse .notReady := by
  unfold runRule
  rw [if_pos hs, if_neg]
  rintro ⟨-, hsetup, haxes⟩
  have haxes : s.hz.state = .ready ∧ s.vt.state = .ready := by simpa [State.bothReady] using haxes
  rcases h with h | h | h
  · rw [h] at hsetup; cases hsetup
  · exact h haxes.1
  · exact h haxes.2

theorem runRule_accepted (hs : s.engine.state = .stopped) (hconfig : s.config.isSome = true)
    (hsetup : s.setup.isSome = true) (hhz : s.hz.state = .ready) (hvt : s.vt.state = .ready) :
    runRule () s = ⟨.ok .none, s.enterWaiting⟩ := by
  simp [runRule, hs, hconfig, hsetup, State.bothReady, hhz, hvt]

/-- From STOPPED, with no window and no light, WAITING is entered by the state alone. -/
theorem State.enter_waiting_dark (hwindow : s.light.window = none) (hoff : s.light.emitter = .off) :
    s.enter .waiting = { s with engine := { s.engine with state := .waiting, dwelling := false } } := by
  rw [State.enter_waiting, ← hwindow, ← hoff]

end Run

/-- Settles O34. -/
theorem runEntersWaiting : Obligations.RunEntersWaiting := by
  intro s hready
  rw [exec_run_ready hready]
  refine ⟨fun hs hlacks => ?notReady, fun hs hsetup hhz hvt hwindow hoff => ?accepted, fun hs => ?running⟩
  case notReady =>
    rw [runRule_notReady hs hlacks]
    rfl
  case accepted =>
    rw [runRule_accepted hs hready.2 hsetup hhz hvt, State.enterWaiting, State.enter_waiting_dark hwindow hoff]
  case running =>
    rw [runRule_running hs]
    rfl

/-! ### PAUSE -/

theorem exec_pause_ready {s : State} (h : s.LinkReady) :
    exec (.pause true) s = .next (s.pauseEngine.respond 10 (.ok .none)).followLight :=
  congrArg lit (State.takeCommand_ready h .pause () pauseRule)

section Pause

variable {s : State}

theorem State.pauseEngine_stopped (hs : s.engine.state = .stopped) : s.pauseEngine = s := by
  unfold State.pauseEngine
  rw [hs]

theorem State.pauseEngine_waiting (hs : s.engine.state = .waiting) : s.pauseEngine = s.enter .stopped := by
  unfold State.pauseEngine
  rw [hs]

theorem State.pauseEngine_suspended (hs : s.engine.state = .suspended) : s.pauseEngine = s.stopAim .aborted := by
  unfold State.pauseEngine
  rw [hs]

/-- WAITING is no state that calls for light (R128, first row). -/
theorem Engine.wantsLight_waiting {e : Engine} (h : e.state = .waiting) : e.wantsLight = false := by
  simp [Engine.wantsLight, h]

end Pause

/-- Settles O35: neither STOPPED nor WAITING calls for light, so that the emitter is OFF before and after. -/
theorem pauseStopsWaiting : Obligations.PauseStopsWaiting := by
  intro s hready hlight hwindow
  rw [exec_pause_ready hready]
  refine ⟨fun hs => ?stopped, fun hs => ?waiting⟩
  case stopped =>
    rw [State.pauseEngine_stopped hs]
    exact congrArg _ (State.followLight_respond hlight _ _)
  case waiting =>
    have hoff : s.light.emitter = .off := State.emitter_off_of_unlit hlight (Engine.wantsLight_waiting hs)
    rw [State.pauseEngine_waiting hs, State.enter_stopped, ← hwindow, ← hoff, State.followLight_unlit rfl, State.respond]
    dsimp only
    rw [← hoff]

/-- Settles O36: a running aim is ended by `pauseEngine_running`, a suspended one by `stopAim_stopped`; the engine is then
STOPPED, which calls for no light. -/
theorem pauseAbortsAim : Obligations.PauseAbortsAim := by
  intro s a r hready ha hr
  rw [exec_pause_ready hready]
  refine ⟨fun hrun => ?running, fun hcons hs => ?suspended⟩
  case running =>
    obtain ⟨p, q, hp, hfields, hended, hpause⟩ := State.pauseEngine_running hrun ha hr
    refine ⟨_, _, p, q, rfl, s.closeObservation_openClosed, hp, hfields, hended, ?_⟩
    rw [hpause, State.followLight_unlit rfl]
    exact ⟨Drive.stop_stopped .hz s.hz, Drive.stop_stopped .vt s.vt, rfl⟩
  case suspended =>
    have hopen : s.engine.openObs = none := hcons.openObs_none (by rw [hs]; decide) (by rw [hs]; decide)
    refine ⟨_, r.endAim_endedAs s.clock (a.lastLock.getD s.clock) a.ranged .aborted (.inr (.inl rfl)), ?_⟩
    rw [State.pauseEngine_suspended hs, State.stopAim_stopped .aborted (.inr (.inl rfl)) hopen ha hr,
      State.followLight_unlit rfl]
    rfl

/-! ### RANGE -/

theorem exec_range_ready {s : State} (h : s.LinkReady) (a : RangeArgs) : exec (.range (some a)) s =
    .next ((rangeRule a s).state.respond 12 (rangeRule a s).answer).followLight :=
  congrArg lit (State.takeCommand_ready h .range a rangeRule)

section Range

variable {s : State} {a : RangeArgs}

theorem rangeRule_badValue (ha : a.distance < 2000 ∨ 1500000 < a.distance) (s : State) :
    rangeRule a s = s.refuse .badValue := if_pos ha

theorem State.openIs_iff {seq : Nat} : s.openIs seq = true ↔ ∃ o, s.engine.openObs = some o ∧ o.seq = seq := by
  unfold State.openIs
  cases s.engine.openObs <;> simp

variable (hlo : 2000 ≤ a.distance) (hhi : a.distance ≤ 1500000)
include hlo hhi

theorem rangeRule_tooLate (h : ∀ o, s.engine.openObs = some o → o.seq ≠ a.seq) : rangeRule a s = s.refuse .tooLate := by
  have hother : ¬ s.openIs a.seq = true := by
    rw [State.openIs_iff]
    rintro ⟨o, ho, hseq⟩
    exact h o ho hseq
  unfold rangeRule
  rw [if_neg (by omega), if_neg hother]

variable {o : OpenObs} (ho : s.engine.openObs = some o) (hseq : o.seq = a.seq)
include ho hseq

/-- RANGE for the open observation closes it (R94), and in RANGING ends the aim (R89). -/
theorem rangeRule_closes : rangeRule a s = ⟨.ok .none,
    if s.engine.state = .ranging then (s.closeObservation (some a.distance) true).endAim .observed none
    else s.closeObservation (some a.distance) true⟩ := by
  unfold rangeRule
  rw [if_neg (by omega), if_pos (State.openIs_iff.mpr ⟨o, ho, hseq⟩)]

end Range

/-- Settles O38: the command slot is no condition of R128, so that the emitter stays. -/
theorem rangeRefused : Obligations.RangeRefused := by
  intro a s hready hlight
  rw [exec_range_ready hready]
  refine ⟨fun hbad => ?badValue, fun hlo hhi hother => ?tooLate⟩
  case badValue =>
    rw [rangeRule_badValue hbad]
    exact congrArg _ (State.followLight_respond hlight _ _)
  case tooLate =>
    rw [rangeRule_tooLate hlo hhi hother]
    exact congrArg _ (State.followLight_respond hlight _ _)

end Sys2Proof.Machine

namespace Sys2Proof.Machine

open Sys2Proof

/-! ### RANGE for the open observation -/

theorem velocityComponent_eq (a b : Int) (gap : Nat) :
    velocityComponent a b gap = max (-8000) (min 8000 (((a - b) * 1000).tdiv gap)) :=
  clampInt_eq (-8000) 8000 _ (by decide)

/-- The velocity that two fixes give (R35), in the words of the statement. -/
theorem velocityOf_eq (cls : PrismClass) (x y : Fix) : velocityOf cls (some x) (some y) =
    if cls = .machine ∧ 8 ≤ x.quality ∧ 8 ≤ y.quality ∧ 100 ≤ x.time - y.time ∧ x.time - y.time ≤ 5000 then
      some ⟨max (-8000) (min 8000 (((x.pos.e - y.pos.e) * 1000).tdiv (x.time - y.time : Nat))),
        max (-8000) (min 8000 (((x.pos.n - y.pos.n) * 1000).tdiv (x.time - y.time : Nat))),
        max (-8000) (min 8000 (((x.pos.h - y.pos.h) * 1000).tdiv (x.time - y.time : Nat)))⟩
    else none := by
  cases cls <;> simp [velocityOf, velocityComponent_eq]

theorem velocityOf_single (cls : PrismClass) (x : Fix) : velocityOf cls (some x) none = none := by
  cases cls <;> rfl

/-- With none open, closing changes nothing (R93). -/
theorem State.closeObservation_of_none {s : State} (h : s.engine.openObs = none) : s.closeObservation none true = s :=
  s.closeObservation_openClosed.1 h

/-- The record of an aim that ends OBSERVED with a ranged observation (R37, R38). -/
theorem TargetRecord.endAim_observed (now lock : Nat) (r : TargetRecord) :
    let q := r.endAim now lock true .observed none
    q = { r with
      lastOutcome := some .observed
      due := lock + r.interval
      dueArmed := true
      misses := 0
      lost := false
      state := q.state
      deferUntil := q.deferUntil
      deferArmed := q.deferArmed } :=
  (TargetRecord.endAim_writes now lock true .observed none r).1

/-- An aim with nothing open ends OBSERVED and the engine goes on in WAITING (R95, R38, R52). -/
theorem State.finishAim_observed_waiting {s : State} {a : Aim} {r : TargetRecord} (ho : s.engine.openObs = none)
    (ha : s.engine.aim = some a) (hr : s.table[a.slot]? = some (some r)) :
    (s.finishAim .observed none).enter .waiting = { s with
      table := s.table.set a.slot (some (r.endAim s.clock (a.lastLock.getD s.clock) a.ranged .observed none))
      sectors := (s.writeBlock .observed a).sectors
      engine := { s.engine with state := .waiting, aim := none, suspension := none, openObs := none, dwelling := false }
      light := { s.light with window := none, emitter := .off } } := by
  have hclosed := State.closeObservation_of_none ho
  have hrecord : (s.closeObservation none true).record a.slot = some r := by
    rw [hclosed]
    exact State.record_of_table hr
  rw [State.enter_waiting, State.finishAim_eq .observed none ha hrecord, hclosed]
  simp

section Range

variable {s : State} {d : Nat} {o : OpenObs} {m : Aim} (ho : s.engine.openObs = some o) (hm : s.engine.aim = some m)
include ho hm

/-- The engine after a RANGE has closed the open observation: none open, the aim ranged (R93 step 5). -/
theorem State.closeObservation_some_engine : (s.closeObservation (some d) true).engine =
    { s.engine with openObs := none, aim := some { m with ranged := true } } := by
  rw [(State.closeObservation_closed (some d) o s ho).frame]
  simp [hm]

end Range

/-- Settles O39: RANGE closes by `closeObservation_closed`; in RANGING the aim, then ranged, ends OBSERVED by
`finishAim_observed_waiting`, its record that of `endAim_observed`. -/
theorem rangeClosesObservation : Obligations.RangeClosesObservation := by
  refine ⟨fun a o m s hready hlo hhi ho hseq hm => ?_, fun cls x y => ⟨velocityOf_single cls x, velocityOf_eq cls x y⟩⟩
  have hclosed := State.closeObservation_closed (some a.distance) o s ho
  have hengine := State.closeObservation_some_engine (d := a.distance) ho hm
  rw [exec_range_ready hready, rangeRule_closes hlo hhi ho hseq]
  refine ⟨s.closeObservation (some a.distance) true, hclosed, by rw [hengine], fun hs => ?_, fun r0 hs hr0 => ?_⟩
  · rw [if_neg hs, hengine]
    exact ⟨rfl, rfl⟩
  · obtain ⟨r, hr, hfields⟩ := State.closeObservation_record (some a.distance) s m.slot r0 hr0
    rw [if_pos hs]
    have hend := State.finishAim_observed_waiting (a := { m with ranged := true }) (by rw [hengine]) (by rw [hengine]) hr
    obtain ⟨-, hstate⟩ := TargetRecord.endAim_writes s.clock (m.lastLock.getD s.clock) true .observed none r
    obtain ⟨hdeferred, hidle⟩ := hstate r.deferUntil rfl
    rw [State.closeObservation_clock, State.closeObservation_light, hengine] at hend
    refine ⟨((s.closeObservation (some a.distance) true).finishAim .observed none).enter .waiting, r,
      r.endAim s.clock (m.lastLock.getD s.clock) true .observed none, rfl, hr, hfields, ?_, r.endAim_observed _ _,
      hdeferred, hidle, fun k hk => ?_⟩
    · rw [hend, State.closeObservation_clock]
    · have hsectors := State.closeObservation_sectors s (some a.distance) true
      have hsector := State.writeBlock_sector .observed { m with ranged := true }
        (s := s.closeObservation (some a.distance) true) (k := k) (by rwa [hsectors])
      have hold : (s.closeObservation (some a.distance) true).sector k = s.sector k := by
        unfold State.sector
        rw [hsectors]
      rw [hold] at hsector
      rw [hend]
      exact hsector

end Sys2Proof.Machine

namespace Sys2Proof.Machine

open Sys2Proof

/-! ### The tests for resumption -/

/-- A suspended aim on its own record, at the tests for resumption within 10,000 ms (R102). -/
structure State.Resumable (a : Aim) (u : Suspension) (r : TargetRecord) (s : State) : Prop where
  suspended : s.engine.state = .suspended
  released : s.held = false
  ready : s.hz.state = .ready ∧ s.vt.state = .ready
  aim : s.engine.aim = some a
  suspension : s.engine.suspension = some u
  record : s.record a.slot = some r
  prism : r.prism = u.prism
  fresh : s.clock ≤ u.time + 10000

/-- What follows is the filter's answer alone (R102, R103). -/
theorem State.Resumable.tryResume_eq {s : State} {a : Aim} {u : Suspension} {r : TargetRecord} (h : s.Resumable a u r) :
    (∀ d, s.filter r = .passes d → s.tryResume = s.resumeAim u r d) ∧
      (∀ why reason, s.filter r = .fails why → why.reason = some reason →
        s.tryResume = s.endAim (.unreachable reason) none) ∧
      (s.filter r = .fails .noPrediction → s.tryResume = s.endAim .abandoned none) := by
  obtain ⟨hs, hheld, ⟨hhz, hvt⟩, ha, hu, hr, hp, hfresh⟩ := h
  have htests : s.engine.state = .suspended ∧ s.held = false ∧ s.bothReady = true :=
    ⟨hs, hheld, by simp [State.bothReady, hhz, hvt]⟩
  have hrecord : ((s.record a.slot).filter fun q => q.prism = u.prism) = some r := by simp [hr, hp]
  unfold State.tryResume
  rw [if_pos htests, ha, hu]
  dsimp only
  rw [if_neg (Nat.not_lt.mpr hfresh), hrecord]
  dsimp only
  refine ⟨fun d hf => by rw [hf], fun why reason hf hw => ?_, fun hf => ?_⟩
  · rw [hf]
    dsimp only
    rw [hw]
  · rw [hf]
    rfl

/-- A move to a search position, its HZ target reduced and its VT target held (R80, R81, R113). -/
theorem Drive.move_searchPosition (now index : Nat) (centre : Angles) (d : Drive) :
    DriveMoved .hz now ((centre.hz + 12000 * (searchOffset index).1) % 4000000) d
        (d.move .hz now (searchPosition centre index).hz) ∧
      DriveMoved .vt now (max 200000 (min 1800000 (centre.v + 12000 * (searchOffset index).2))) d
        (d.move .vt now (searchPosition centre index).v) := by
  have hhz := d.move_moved .hz now (searchPosition centre index).hz
  have hvt := d.move_moved .vt now (searchPosition centre index).v
  rw [targetInRange_hz, searchPosition, reduce_idem] at hhz
  rw [targetInRange_vt, searchPosition, clampV_idem] at hvt
  exact ⟨hhz, hvt⟩

/-- Settles O53: the three answers of the filter by `tryResume_eq`, the resumed aim by `resumeAim_eq`. -/
theorem resumptionRestoresAim : Obligations.ResumptionRestoresAim := by
  intro s a u r hs hheld hhz hvt ha hu hr hp hfresh
  have h : s.Resumable a u r := ⟨hs, hheld, ⟨hhz, hvt⟩, ha, hu, State.record_of_table hr, hp, hfresh⟩
  obtain ⟨hpasses, hfails, hlost⟩ := h.tryResume_eq
  refine ⟨fun d hf => ?_, hfails, hlost⟩
  rw [hpasses d hf, State.resumeAim_eq u r d ha hs]
  refine ⟨fun hsearch => ?searching, fun hother => ?slewing⟩
  case searching =>
    rw [if_pos hsearch]
    exact ⟨rfl, (Drive.move_searchPosition s.clock u.index a.centre s.hz).1,
      (Drive.move_searchPosition s.clock u.index a.centre s.vt).2⟩
  case slewing =>
    rw [if_neg hother]
    exact ⟨rfl, s.hz.move_moved .hz s.clock d.hz, targetInRange_vt d.v ▸ s.vt.move_moved .vt s.clock d.v⟩

/-! ### The aim's timers -/

/-- The slope distance that an observation holds is read off the aim's slot and centre, the table, the setup and the
clock (R91). -/
theorem State.heldDistance_congr {s t : State} {a b : Aim} (slot : b.slot = a.slot) (centreSd : b.centreSd = a.centreSd)
    (table : t.table = s.table) (setup : t.setup = s.setup) (clock : t.clock = s.clock) :
    t.heldDistance b = s.heldDistance a := by
  unfold State.heldDistance State.record
  rw [slot, centreSd, table, setup, clock]

theorem State.heldDistance_given {s : State} {a : Aim} {q : TargetRecord} {p : Grid} {d : Direction}
    (hq : s.table[a.slot]? = some (some q)) (hp : q.prediction s.clock = some p) (hd : directionTo s.setup p = .given d) :
    s.heldDistance a = d.sd := by
  unfold State.heldDistance
  rw [State.record_of_table hq, Option.bind_some, hp]
  dsimp only
  rw [hd]

/-- Without a direction the distance held is the centre's (R91). -/
theorem State.heldDistance_centre {s : State} {a : Aim} (h : ∀ q p d, s.table[a.slot]? = some (some q) →
    q.prediction s.clock = some p → directionTo s.setup p ≠ .given d) : s.heldDistance a = a.centreSd := by
  unfold State.heldDistance
  split
  · rfl
  · rename_i p hbind
    obtain ⟨q, hq, hp⟩ := Option.bind_eq_some_iff.mp hbind
    split
    · rename_i d hd
      exact absurd hd (h q p d (State.record_eq_some hq) hp)
    · rfl

/-- The aim context takes no part in the closing of an observation without a distance (R93). -/
theorem State.closeObservation_withAim (s : State) (b : Aim) :
    (s.withAim b).closeObservation none true = (s.closeObservation none true).withAim b := by
  have htable := State.closeObservation_table_congr none true (s := s) (t := s.withAim b) rfl rfl rfl
  have hlink := State.closeObservation_link_congr none true (s := s) (t := s.withAim b) rfl rfl rfl
  rw [State.closeObservation_none_frame (s.withAim b), htable, hlink]
  conv_rhs => rw [State.closeObservation_none_frame s]
  rfl

/-- The engine goes on from one window state into another, one that calls for light: the window and the light stand (R130,
R128). -/
theorem State.enter_windowed {s : State} (e : EngineState) (he : e.makesWindows = true)
    (hlit : ({ s.engine with state := e, dwelling := false } : Engine).wantsLight = true)
    (hm : s.engine.state.makesWindows = true) (hw : s.light.window.isSome = true) :
    s.enter e = { s with engine := { s.engine with state := e, dwelling := false } } := by
  unfold State.enter
  simp only [he, hm, hw, hlit, and_self, if_true]

section Timers

variable {s : State} {a : Aim} (ha : s.engine.aim = some a)
include ha

/-- An expiry of the aim counts in its one state, once its deadline has come (R9). -/
theorem State.aimExpires_iff {e : EngineState} {deadline : Aim → Option Nat} : s.aimExpires e deadline = true ↔
    s.engine.state = e ∧ ∃ n, deadline a = some n ∧ n ≤ s.clock := by
  simp [State.aimExpires, ha, expired_iff]

/-- Elsewhere, or ahead of its deadline, it does not. -/
theorem State.aimExpires_eq_false {e : EngineState} {deadline : Aim → Option Nat}
    (h : s.engine.state ≠ e ∨ ∀ n, deadline a = some n → s.clock < n) : ¬ s.aimExpires e deadline = true := by
  rw [State.aimExpires_iff ha]
  rintro ⟨hs, n, hn, hle⟩
  rcases h with h | h
  · exact h hs
  · exact Nat.not_le.mpr (h n hn) hle

theorem State.onAim_eq (f : Aim → Aim) : s.onAim f = s.withAim (f a) := by
  unfold State.onAim State.withAim
  rw [ha]
  rfl

/-- A sample with no OWN light since the last one is skipped (R91). -/
theorem State.takeSample_skipped {n : Nat} (hn : a.nextSample = some n) (hown : a.ownSince = false) :
    s.takeSample = s.withAim { a with nextSample := some (n + 100) } := by
  unfold State.takeSample
  rw [ha]
  dsimp only
  rw [State.onAim_eq ha, hn]
  split
  · rename_i hseen _
    rw [hown] at hseen
    cases hseen
  · rfl

/-- A sample with OWN light since the last one (R91): the open observation closed and a TRACK observation opened. -/
theorem State.takeSample_taken {n : Nat} {g : Angles} (hn : a.nextSample = some n) (hown : a.ownSince = true)
    (hg : a.latestOwn = some g) : s.takeSample =
      { s.closeObservation none true with engine := { s.engine with
        aim := some { a with nextSample := some (n + 100), ownSince := false }
        openObs := some ⟨s.engine.sequence, .track, a.prism, s.clock, g.hz, g.v, a.codeSeen,
          (s.closeObservation none true).heldDistance a⟩
        sequence := (s.engine.sequence + 1) % 65536 } } := by
  have hopened : s.takeSample =
      (((s.closeObservation none true).withAim { a with nextSample := some (n + 100) }).openObservation .track g).onAim
        fun x => { x with ownSince := false } := by
    unfold State.takeSample
    rw [ha]
    dsimp only
    rw [State.onAim_eq ha, hn, hown, hg, ← State.closeObservation_withAim]
    rfl
  have hheld : ((s.closeObservation none true).withAim { a with nextSample := some (n + 100) }).heldDistance
      { a with nextSample := some (n + 100) } = (s.closeObservation none true).heldDistance a :=
    State.heldDistance_congr rfl rfl rfl rfl rfl
  have hengine := s.closeObservation_none_engine
  rw [hopened, State.openObservation, State.withAim]
  dsimp only
  rw [← State.withAim, hheld, State.closeObservation_clock, hengine]
  rfl

/-- At the end of the dwell the open observation goes on in RANGING, for 800 ms after its lock (R92). -/
theorem State.endDwell_ranging {o : OpenObs} (ho : s.engine.openObs = some o) (hm : s.engine.state.makesWindows = true)
    (hw : s.light.window.isSome = true) : s.endDwell = { s with engine := { s.engine with
      state := .ranging
      dwelling := false
      aim := some { a with
        nextSample := none, dwellDeadline := none, inTolerance := 0, nonOwn := 0, mixed := 0
        waitDeadline := some (o.lockTime + 800) } } } := by
  unfold State.endDwell
  rw [ho]
  dsimp only
  rw [State.onAim_eq ha, State.withAim_onAim, State.enter_windowed .ranging rfl rfl (by exact hm) (by exact hw)]
  rfl

/-- With none open the aim ends OBSERVED (R92). -/
theorem State.endDwell_observed (ho : s.engine.openObs = none) :
    s.endDwell = (s.withAim { a with nextSample := none, dwellDeadline := none }).endAim .observed none := by
  unfold State.endDwell
  rw [ho]
  dsimp only
  rw [State.onAim_eq ha]

end Timers

/-- The emitter stays as R128 has it where the engine changes among the states that call for light, or among those that
do not. -/
theorem State.lightConsistent_of_engine {s : State} (h : s.lightConsistent) {g : Engine}
    (hg : g.wantsLight = s.engine.wantsLight) : ({ s with engine := g } : State).lightConsistent := by
  refine h.trans ?_
  unfold State.lightAllowed
  rw [show ({ s with engine := g } : State).engine.wantsLight = s.engine.wantsLight from hg]
  rfl

/-- Settles O52: an expiry that counts does its work, any other nothing; TRACKING and RANGING both call for light, so that
the emitter stays. -/
theorem aimTimersEndPhases : Obligations.AimTimersEndPhases := by
  intro s a ha hlight hwindow
  have hstill : s.followLight = s := State.followLight_eq s hlight
  refine ⟨fun n hs hn hle => ?sample, fun n hs hn hle => ?dwell, fun n hs hn hle => ?wait, fun n hs hn hle => ?abandon,
    fun h => congrArg _ (if_neg (State.aimExpires_eq_false ha h)), fun h => ?noDwell, fun h => ?noWait,
    fun h => ?noAbandon⟩
  case sample =>
    have hexec : exec .trackSample s = .next s.takeSample :=
      congrArg _ (if_pos ((State.aimExpires_iff ha).mpr ⟨hs, n, hn, hle⟩))
    rw [hexec]
    refine ⟨fun hown => by rw [State.takeSample_skipped ha hn hown]; rfl, fun g hown hg => ?_⟩
    refine ⟨s.closeObservation none true, s.closeObservation_openClosed, by rw [State.takeSample_taken ha hn hown hg],
      fun q p d hq hp hd => ?_, fun hno => State.heldDistance_centre fun q p d hq hp => ?_⟩
    · exact State.heldDistance_given hq (by rwa [State.closeObservation_clock]) (by rwa [State.closeObservation_setup])
    · rw [State.closeObservation_clock] at hp
      rw [State.closeObservation_setup]
      exact hno q p d hq hp
  case dwell =>
    have hexec : exec .trackDwellExpiry s = .next s.endDwell.followLight :=
      congrArg lit (if_pos ((State.aimExpires_iff ha).mpr ⟨hs, n, hn, hle⟩))
    have hm : s.engine.state.makesWindows = true := by rw [hs]; rfl
    rw [hexec]
    refine ⟨fun o ho => ?_, fun ho => ?_⟩
    · rw [State.endDwell_ranging ha ho hm (hwindow.trans hm)]
      refine congrArg _ (State.followLight_eq _ (State.lightConsistent_of_engine hlight ?_))
      simp [Engine.wantsLight, hs]
    · rw [State.endDwell_observed ha ho]
      rfl
  case wait => exact congrArg lit (if_pos ((State.aimExpires_iff ha).mpr ⟨hs, n, hn, hle⟩))
  case abandon => exact congrArg lit (if_pos ((State.aimExpires_iff ha).mpr ⟨hs, n, hn, hle⟩))
  all_goals exact (congrArg lit (if_neg (State.aimExpires_eq_false ha h))).trans (congrArg _ hstill)

end Sys2Proof.Machine

namespace Sys2Proof.Machine

open Sys2Proof

/-! ### Centring and the lock -/

/-- The aim after an OWN window in CENTRING that brings the count of windows in tolerance to `n` (R84). -/
def Aim.countOwn (m : WindowReport) (n : Nat) (a : Aim) : Aim :=
  { a with codeSeen := a.codeSeen || m.code.isSome, nonOwn := 0, mixed := 0, inTolerance := n }

/-- The aim after the lock at `x`, with `d` the dwell of a MACHINE record and 0 for any other (R88). -/
def Aim.locked (now d : Nat) (x : Angles) (a : Aim) : Aim :=
  if 0 < d then
    { a with
      inTolerance := 0, nonOwn := 0, mixed := 0, lastLock := some now, dwellDeadline := some (now + d)
      nextSample := some (now + 100), latestOwn := some x, ownSince := false }
  else { a with inTolerance := 0, nonOwn := 0, mixed := 0, lastLock := some now, waitDeadline := some (now + 800) }

/-- The dwell that a lock on the record begins (R88): none but a MACHINE's. -/
def TargetRecord.lockDwell (r : TargetRecord) : Nat := (if r.cls = .machine then r.dwell else none).getD 0

theorem WindowReport.inTolerance_iff {m : WindowReport} {dx dy : Int} (ho : m.offsets = some (dx, dy)) :
    m.inTolerance = true ↔ dx.natAbs ≤ 20 ∧ dy.natAbs ≤ 20 := by
  simp [WindowReport.inTolerance, ho]

section Aimed

variable {s : State} {a : Aim} {r : TargetRecord} (ha : s.engine.aim = some a) (hr : s.table[a.slot]? = some (some r))
include ha

/-- An OWN window in CENTRING adjusts the axes and counts; the third in tolerance in a row is the lock (R84). -/
theorem State.centringOwn_eq {m : WindowReport} {n : Nat} (hn : n = if m.inTolerance then a.inTolerance + 1 else 0) :
    s.centringOwn m = if 3 ≤ n then ((s.adjustAxes m.angles).withAim (a.countOwn m n)).lock m.angles
      else (s.adjustAxes m.angles).withAim (a.countOwn m n) := by
  unfold State.centringOwn
  rw [ha]
  dsimp only
  rw [← hn, State.onAim_eq (a := a) (by rw [State.adjustAxes_engine, ha])]
  rfl

include hr

theorem State.takeWindow_centringOwn {m : WindowReport} (hs : s.engine.state = .centring) (hown : m.cls = .own)
    (hcode : ¬ r.SeesWrongCode m) : s.takeWindow m = s.centringOwn m := by
  have hright : ¬ s.wrongCode a m = true := fun h => hcode ((State.wrongCode_iff m hr).mp h)
  unfold State.takeWindow
  rw [ha]
  dsimp only
  rw [hs]
  dsimp only
  unfold State.centringWindow
  rw [hown]
  exact if_neg hright

/-- The lock (R87, R88) writes the engine alone. -/
theorem State.lock_eq (x : Angles) (hm : s.engine.state.makesWindows = true) (hw : s.light.window.isSome = true) :
    s.lock x = { s with engine := { s.engine with
      state := if 0 < r.lockDwell then .tracking else .ranging
      dwelling := false
      aim := some (a.locked s.clock r.lockDwell x)
      openObs := some ⟨s.engine.sequence, .lock, a.prism, s.clock, x.hz, x.v, a.codeSeen, s.heldDistance a⟩
      sequence := (s.engine.sequence + 1) % 65536 } } := by
  have hdwell : ((s.record a.slot).bind fun r => if r.cls = .machine then r.dwell else none).getD 0 = r.lockDwell := by
    rw [State.record_of_table hr]
    rfl
  unfold State.lock State.openObservation Aim.locked
  rw [ha]
  dsimp only
  rw [hdwell]
  by_cases hpos : 0 < r.lockDwell
  · rw [if_pos hpos, State.enter_windowed .tracking rfl rfl (by exact hm) (by exact hw)]
    simp [hpos, State.onAim, ha, Aim.clearCounters, nextSequence]
  · rw [if_neg hpos, State.enter_windowed .ranging rfl rfl (by exact hm) (by exact hw)]
    simp [hpos, State.onAim, ha, Aim.clearCounters, nextSequence]

variable {m : WindowReport} {n : Nat} (hn : n = if m.inTolerance then a.inTolerance + 1 else 0)
include hn

/-- An OWN window in CENTRING adjusts the two drives and writes the engine: the aim counted, or with the third in a row the
lock (R84, R87, R88). -/
theorem State.centringOwn_writes (hm : s.engine.state.makesWindows = true) (hw : s.light.window.isSome = true) :
    ∃ g, s.centringOwn m = { s with
        engine := g, hz := s.hz.adjust .hz m.angles.hz, vt := s.vt.adjust .vt m.angles.v } ∧
      (n < 3 → g = { s.engine with aim := some (a.countOwn m n) }) ∧
      (3 ≤ n → g = { s.engine with
        state := if 0 < r.lockDwell then .tracking else .ranging
        dwelling := false
        aim := some ((a.countOwn m n).locked s.clock r.lockDwell m.angles)
        openObs := some ⟨s.engine.sequence, .lock, a.prism, s.clock, m.angles.hz, m.angles.v,
          a.codeSeen || m.code.isSome, s.heldDistance a⟩
        sequence := (s.engine.sequence + 1) % 65536 }) := by
  rw [State.centringOwn_eq ha hn]
  by_cases h3 : 3 ≤ n
  · have hheld : ((s.adjustAxes m.angles).withAim (a.countOwn m n)).heldDistance (a.countOwn m n) = s.heldDistance a :=
      State.heldDistance_congr rfl rfl rfl rfl rfl
    rw [if_pos h3, State.lock_eq (s := (s.adjustAxes m.angles).withAim (a.countOwn m n)) (a := a.countOwn m n) rfl hr
      m.angles hm hw, hheld]
    exact ⟨_, rfl, fun hlow => absurd h3 (Nat.not_le.mpr hlow), fun _ => rfl⟩
  · rw [if_neg h3]
    exact ⟨_, rfl, fun _ => rfl, fun h => absurd h h3⟩

end Aimed

theorem Aim.locked_tracking (now : Nat) {d : Nat} (hd : 0 < d) (x : Angles) (a : Aim) : a.locked now d x =
    { a with
      inTolerance := 0, nonOwn := 0, mixed := 0, lastLock := some now, dwellDeadline := some (now + d)
      nextSample := some (now + 100), latestOwn := some x, ownSince := false } := if_pos hd

/-- The lock clears the counters and keeps the code-seen mark, into either state (R74, R87). -/
theorem Aim.locked_counters (now d : Nat) (x : Angles) (a : Aim) : (a.locked now d x).inTolerance = 0 ∧
    (a.locked now d x).nonOwn = 0 ∧ (a.locked now d x).mixed = 0 ∧ (a.locked now d x).lastLock = some now ∧
    (a.locked now d x).codeSeen = a.codeSeen := by
  unfold Aim.locked
  split <;> exact ⟨rfl, rfl, rfl, rfl, rfl⟩

theorem TargetRecord.lockDwell_machine {r : TargetRecord} {d : Nat} (hc : r.cls = .machine) (hd : r.dwell = some d) :
    r.lockDwell = d := by simp [TargetRecord.lockDwell, hc, hd]

theorem TargetRecord.lockDwell_zero {r : TargetRecord} (h : r.cls ≠ .machine ∨ r.dwell = none ∨ r.dwell = some 0) :
    r.lockDwell = 0 := by
  unfold TargetRecord.lockDwell
  rcases h with h | h | h
  · simp [h]
  · simp [h]
  · split <;> simp [h]

/-- The end of a window, both axes having a position (R131, R138): the next one begins, and the engine takes the report. -/
theorem exec_windowEnd_over {x y h v : Int} {w : Window} {s u : State} {m : WindowReport} (hu : u = s.readBoth x y)
    (hw : s.light.window = some w) (hover : w.start + 108288 ≤ s.instant) (hh : u.hz.position .hz = some h)
    (hv : u.vt.position .vt = some v) (hm : m = windowReport s.ownStation w.pulses w.codes h v s.clock) :
    exec (.windowEnd x y) s = .next (({ u with light := { s.light with
      window := some (nextWindow w), last := some (u.lastOf m) } } : State).takeWindow m).followLight := by
  have hwindow : u.light.window = some w := by rw [hu]; exact hw
  have hdone : u.windowOver = true := by
    unfold State.windowOver
    rw [hwindow, hu]
    exact decide_eq_true hover
  have hreport : m = windowReport u.ownStation w.pulses w.codes h v u.clock := by rw [hm, hu]; rfl
  have hexec : exec (.windowEnd x y) s = lit (u.endWindow w) := by
    rw [hu] at hwindow hdone ⊢
    change execWindowEnd x y s = _
    unfold execWindowEnd
    dsimp only
    unfold State.readBoth at hwindow hdone ⊢
    rw [hwindow]
    dsimp only
    rw [if_pos hdone]
  rw [hexec]
  unfold State.endWindow
  rw [hh, hv]
  dsimp only
  rw [← hreport, hu]
  rfl

/-- A state that the emitter then follows keeps what else was written (R129). -/
theorem State.followLight_written {s t : State} {g : Engine} {hz vt : Drive} {l : Light}
    (h : t = ({ s with engine := g, hz := hz, vt := vt, light := l } : State).followLight) :
    t.engine = g ∧ t.hz = hz ∧ t.vt = vt ∧
      t = { s with engine := t.engine, hz := t.hz, vt := t.vt, light := t.light } := by
  rw [State.followLight_frame] at h
  subst h
  exact ⟨rfl, rfl, rfl, rfl⟩

/-- Settles O51: the window's end is that of `exec_windowEnd_over`, its OWN light in CENTRING that of
`centringOwn_writes`. -/
theorem centringLocksOnOwnLight : Obligations.CentringLocksOnOwnLight := by
  intro x y h v w s u a r m dx dy hu hw hover hh hv hm hown ho hs ha hr hcode
  obtain ⟨n, hn⟩ : ∃ n, n = if m.inTolerance then a.inTolerance + 1 else 0 := ⟨_, rfl⟩
  have hcount : n = if dx.natAbs ≤ 20 ∧ dy.natAbs ≤ 20 then a.inTolerance + 1 else 0 :=
    hn.trans (if_congr (WindowReport.inTolerance_iff ho) rfl rfl)
  have hright : ¬ r.SeesWrongCode m := by
    rintro ⟨c, hc, hno⟩
    exact hno (hcode c hc)
  -- The next window begun, the axes read.
  obtain ⟨b, hb⟩ : ∃ b : State, b = { u with light := { s.light with
    window := some (nextWindow w), last := some (u.lastOf m) } } := ⟨_, rfl⟩
  have hengine : b.engine = s.engine := by rw [hb, hu]; rfl
  have htable : b.table = s.table := by rw [hb, hu]; rfl
  have hclock : b.clock = s.clock := by rw [hb, hu]; rfl
  have hheld : b.heldDistance a = s.heldDistance a := State.heldDistance_congr rfl rfl htable (by rw [hb, hu]; rfl) hclock
  have hba : b.engine.aim = some a := by rw [hengine, ha]
  have hbr : b.table[a.slot]? = some (some r) := by rw [htable, hr]
  have hbs : b.engine.state = .centring := by rw [hengine, hs]
  obtain ⟨g, hwrites, hcounted, hlocked⟩ :=
    State.centringOwn_writes hba hbr hn (by rw [hbs]; rfl) (by rw [hb]; rfl)
  obtain ⟨t, ht⟩ : ∃ t, t = (b.takeWindow m).followLight := ⟨_, rfl⟩
  have hexec : exec (.windowEnd x y) s = .next t := by
    rw [exec_windowEnd_over hu hw hover hh hv hm, ht, hb]
  have hspot : DriveAdjusted .hz ((h + dx) % 4000000) u.hz (b.hz.adjust .hz m.angles.hz) ∧
      DriveAdjusted .vt (max 200000 (min 1800000 (v + dy))) u.vt (b.vt.adjust .vt m.angles.v) := by
    have hadjusted := State.adjustAxes_adjusted m u (u.adjustAxes m.angles) rfl rfl dx dy ho
    rw [hb]
    rw [hm] at hadjusted ⊢
    exact hadjusted
  obtain ⟨hg, hhz, hvt, hframe⟩ : t.engine = g ∧ t.hz = b.hz.adjust .hz m.angles.hz ∧ t.vt = b.vt.adjust .vt m.angles.v ∧
      t = { s with engine := t.engine, hz := t.hz, vt := t.vt, light := t.light } := by
    refine State.followLight_written (l := b.light) ?_
    rw [ht, State.takeWindow_centringOwn hba hbr hbs hown hright, hwrites, hb, hu]
    rfl
  rw [hengine, hclock, hheld] at hlocked
  rw [hengine] at hcounted
  rw [← hhz, ← hvt] at hspot
  by_cases hlow : n < 3
  · rw [hcounted hlow] at hg
    refine ⟨t, a.countOwn m n, n, hexec, by rw [hg], hcount, hframe, hspot.1, hspot.2, rfl, rfl, rfl, fun _ => ?_,
      fun h3 => absurd hlow (Nat.not_lt.mpr h3)⟩
    rw [hg]
    exact ⟨hs, rfl, rfl, rfl⟩
  · obtain ⟨htol, hnon, hmix, hlast, hseen⟩ := (a.countOwn m n).locked_counters s.clock r.lockDwell m.angles
    have hangles : m.angles = ⟨(h + dx) % 4000000, max 200000 (min 1800000 (v + dy))⟩ := by
      rw [WindowReport.angles_eq ho, hm]
      rfl
    rw [hlocked (Nat.not_lt.mp hlow)] at hg
    refine ⟨t, (a.countOwn m n).locked s.clock r.lockDwell m.angles, n, hexec, by rw [hg], hcount, hframe, hspot.1,
      hspot.2, hseen, hnon, hmix, fun h => absurd h hlow,
      fun _ => ⟨htol, hlast, by rw [hg], ?_, fun d hc hd hpos => ?_, fun hno => ?_⟩⟩
    · rw [hg, hseen, hangles]
      rfl
    · rw [hg, TargetRecord.lockDwell_machine hc hd, Aim.locked_tracking _ hpos, hangles]
      exact ⟨if_pos hpos, rfl, rfl, rfl, rfl⟩
    · rw [hg, TargetRecord.lockDwell_zero hno]
      exact ⟨rfl, rfl⟩

end Sys2Proof.Machine

namespace Sys2Proof.Machine

open Sys2Proof

/-! ### What the drives keep: R105 in their records, and stillness in the hold (R123) -/

/-- A drive's record keeps both laws: it stays consistent, and with the hold in force still. -/
structure Drive.Kept (held : Bool) (d e : Drive) : Prop where
  consistent : d.Consistent → e.Consistent
  still : held = true → d.state.stillInHold = true → e.state.stillInHold = true

/-- The state `t` keeps both laws of the drives where `s` meets them. -/
structure State.DrivesKept (s t : State) : Prop where
  consistent : s.drivesConsistent → t.drivesConsistent
  still : s.stillInHold → t.stillInHold

theorem Drive.Kept.refl (held : Bool) (d : Drive) : d.Kept held d := ⟨id, fun _ => id⟩

/-- The fields of a drive's record that the two laws look at. -/
def Drive.judged (d : Drive) : AxisState × Option FaultCode × Option ReturnState × Option Int × Option Int × Bool :=
  (d.state, d.fault, d.returnState, d.target, d.midpoint, d.indexed)

theorem Drive.Kept.beside {held : Bool} {d e : Drive} (h : e.judged = d.judged) : d.Kept held e := by
  simp only [Drive.judged, Prod.mk.injEq] at h
  obtain ⟨state, fault, returnState, target, midpoint, indexed⟩ := h
  exact ⟨fun hd => hd.congr state fault returnState target midpoint indexed, fun _ hd => state ▸ hd⟩

section Drives

variable (held : Bool) (ax : Axis) (now : Nat) (d : Drive)

theorem Drive.read_kept (first : Nat) (raw : Int) : d.Kept held (d.read ax first raw) := .beside rfl

theorem Drive.move_kept (t : Int) : d.Kept held (d.move ax now t) :=
  ⟨Drive.move_consistent ax now t, fun _ h => (Drive.move_still ax now t h).symm ▸ h⟩

theorem Drive.adjust_kept (t : Int) : d.Kept held (d.adjust ax t) :=
  ⟨Drive.adjust_consistent ax t, fun _ h => (Drive.adjust_still ax t h).symm ▸ h⟩

theorem Drive.stop_kept : d.Kept held (d.stop ax) :=
  ⟨Drive.stop_consistent ax, fun _ h => (Drive.stop_still ax h).symm ▸ h⟩

theorem Drive.takeFault_kept (code : FaultCode) : d.Kept held (d.takeFault code) :=
  ⟨Drive.takeFault_consistent code, fun _ => Drive.takeFault_still code⟩

theorem Drive.holdStart_kept : d.Kept held d.holdStart :=
  ⟨Drive.holdStart_consistent, fun _ _ => d.holdStart_still⟩

/-- The brake is released only once the hold is over (R124). -/
theorem Drive.holdEnd_kept : d.Kept false (d.holdEnd ax now) :=
  ⟨Drive.holdEnd_consistent ax now, fun h => by cases h⟩

/-- CONFIGURE brakes an UNINDEXED drive while the hold is in force (R108). -/
theorem Drive.configure_kept (offset : Int) : d.Kept held (d.configure offset held now) := by
  refine ⟨Drive.configure_consistent now offset held, ?_⟩
  rintro rfl h
  unfold Drive.configure
  dsimp only
  split
  · rfl
  · exact h

/-- CLEAR_FAULT brakes the drive while the hold is in force (R122). -/
theorem Drive.clearFault_kept : d.Kept held (d.clearFault ax held now) := by
  refine ⟨Drive.clearFault_consistent ax now held, ?_⟩
  rintro rfl h
  unfold Drive.clearFault
  split
  · split <;> rfl
  · exact h

/-- RESET leaves a still drive as it is (R125). -/
theorem Drive.resetCommand_kept (rest : Int) : d.Kept held (d.resetCommand ax now rest) := by
  refine ⟨Drive.resetCommand_consistent ax now rest, fun _ h => ?_⟩
  unfold Drive.resetCommand
  cases hs : d.state <;> simp_all [AxisState.stillInHold]

variable {d}

/-- What a drive does only in a state in which no hold finds it keeps it still, there being no such case. -/
theorem Drive.Kept.of_not_still {e : Drive} (hs : d.state.stillInHold = false) (h : d.Consistent → e.Consistent) :
    d.Kept held e :=
  ⟨h, fun _ hstill => by rw [hs] at hstill; cases hstill⟩

theorem Drive.arrive_kept (h : d.state = .moving ∨ d.state = .fine) : d.Kept held d.arrive := by
  refine .of_not_still held (by rcases h with h | h <;> rw [h] <;> rfl) fun hc => ?_
  exact Drive.arrive_consistent hc (by rcases h with h | h <;> rw [h] <;> rfl)

theorem Drive.endSettle_kept (h : d.state = .settling) : d.Kept held (d.endSettle ax now) :=
  .of_not_still held (by rw [h]; rfl) fun hc => Drive.endSettle_consistent ax now hc h

theorem Drive.setIndex_kept (mid : Int) (h : d.state = .indexing) : d.Kept held (d.setIndex ax mid now) :=
  .of_not_still held (by rw [h]; rfl) fun _ => Drive.setIndex_consistent ax now mid

end Drives

theorem State.DrivesKept.refl (s : State) : s.DrivesKept s := ⟨id, id⟩

theorem State.DrivesKept.trans {s t u : State} (h : s.DrivesKept t) (h' : t.DrivesKept u) : s.DrivesKept u :=
  ⟨fun hs => h'.consistent (h.consistent hs), fun hs => h'.still (h.still hs)⟩

/-- `trans` from its last step: the state before that step is read off the step. -/
theorem State.DrivesKept.after {s t u : State} (h' : t.DrivesKept u) (h : s.DrivesKept t) : s.DrivesKept u := h.trans h'

theorem State.DrivesKept.of_eq {s t : State} (h : t = s) : s.DrivesKept t := h ▸ .refl s

theorem State.DrivesKept.ite {s t u : State} {c : Prop} [Decidable c] (ht : c → s.DrivesKept t)
    (hu : ¬ c → s.DrivesKept u) : s.DrivesKept (if c then t else u) := by
  split
  · exact ht ‹_›
  · exact hu ‹_›

/-- Both drives keep the laws, and the hold stands as it was. -/
theorem State.DrivesKept.of_drives {s t : State} (hz : s.hz.Kept s.held t.hz) (vt : s.vt.Kept s.held t.vt)
    (held : t.held = s.held) : s.DrivesKept t := by
  refine ⟨fun ⟨h1, h2⟩ => ⟨hz.consistent h1, vt.consistent h2⟩, fun h hheld => ?_⟩
  rw [held] at hheld
  exact ⟨hz.still hheld (h hheld).1, vt.still hheld (h hheld).2⟩

/-- A change beside the drives and the hold. -/
theorem State.DrivesKept.beside {s t : State} (hz : t.hz = s.hz) (vt : t.vt = s.vt)
    (held : t.held = s.held) : s.DrivesKept t :=
  .of_drives (hz ▸ .refl _ _) (vt ▸ .refl _ _) held

/-- A change beside the drives, the line and the peers, which the lemmas on the operation say it is. -/
theorem State.DrivesKept.framed {s t : State}
    (h : t.hz = s.hz ∧ t.vt = s.vt ∧ t.line = s.line ∧ t.peers = s.peers) : s.DrivesKept t := by
  obtain ⟨hz, vt, line, peers⟩ := h
  exact .beside hz vt (State.held_congr peers (by rw [line]))

/-- With no hold in force there is nothing to be still for. -/
theorem State.DrivesKept.of_released {s t : State} (hheld : t.held = false) (hz : s.hz.Consistent → t.hz.Consistent)
    (vt : s.vt.Consistent → t.vt.Consistent) : s.DrivesKept t :=
  ⟨fun ⟨h1, h2⟩ => ⟨hz h1, vt h2⟩, fun _ h => by rw [hheld] at h; cases h⟩

theorem State.DrivesKept.onDrive {s : State} {ax : Axis} {f : Drive → Drive}
    (h : (s.drive ax).Kept s.held (f (s.drive ax))) : s.DrivesKept (s.onDrive ax f) := by
  cases ax
  · exact .of_drives h (.refl _ _) rfl
  · exact .of_drives (.refl _ _) h rfl

variable (s : State)

/-! ### Updates beside the drives -/

theorem State.followLight_drives : s.DrivesKept s.followLight := .framed (by simp)

theorem State.respond_drives (code : Nat) (a : Answer) : s.DrivesKept (s.respond code a) := .beside rfl rfl rfl

theorem State.raise_drives (m : EventMark) : s.DrivesKept (s.raise m) := .beside rfl rfl rfl

theorem State.setRecord_drives (i : Nat) (r : Option TargetRecord) : s.DrivesKept (s.setRecord i r) :=
  .beside rfl rfl rfl

theorem State.onAim_drives (f : Aim → Aim) : s.DrivesKept (s.onAim f) := .beside rfl rfl rfl

theorem State.enter_drives (e : EngineState) : s.DrivesKept (s.enter e) := .framed (by simp)

theorem State.beginDwell_drives : s.DrivesKept s.beginDwell := .beside rfl rfl rfl

theorem State.openObservation_drives (kind : ObsKind) (x : Angles) : s.DrivesKept (s.openObservation kind x) :=
  .framed (by simp)

theorem State.giveObservation_drives (o : Observation) : s.DrivesKept (s.giveObservation o) := .framed (by simp)

/-- An offered frame leaves the receiver, and so the hold, as they are (R152, R169). -/
theorem State.offerFrame_drives (f : Frame) : s.DrivesKept (s.offerFrame f) := by
  refine .beside (by simp) (by simp) (State.held_congr (by simp) ?_)
  rw [State.offerFrame_offered]
  unfold SiteLine.offered
  split <;> rfl

theorem State.requestBreak_drives : s.DrivesKept s.requestBreak :=
  .beside (by simp) (by simp) (State.held_congr (by simp) s.requestBreak_frame.2)

theorem State.offerOwnFix_drives (prism : Nat) (f : Fix) : s.DrivesKept (s.offerOwnFix prism f) := by
  unfold State.offerOwnFix
  split
  · exact .refl s
  · split
    · exact .refl s
    · split
      · exact .refl s
      · exact .ite (fun _ => (s.setRecord_drives _ _).trans (State.offerFrame_drives _ _))
          fun _ => s.setRecord_drives _ _

theorem State.offerClosedFix_drives (o : OpenObs) (c : Closing) (g : Option Grid) :
    s.DrivesKept (s.offerClosedFix o c g) := by
  cases g with
  | none => exact .refl s
  | some g => exact s.offerOwnFix_drives o.prism _

theorem State.closeObservation_drives (range : Option Nat) (offers : Bool) :
    s.DrivesKept (s.closeObservation range offers) := by
  unfold State.closeObservation
  split
  · exact .refl s
  · rename_i o _
    have hgiven : ∀ x, s.DrivesKept (s.dropOpen.giveObservation x) := fun x =>
      .after (State.giveObservation_drives _ x) (.beside rfl rfl rfl)
    have hoffered := fun x c g => State.DrivesKept.ite (c := offers = true)
      (fun _ => (hgiven x).trans (State.offerClosedFix_drives _ o c g)) fun _ => hgiven x
    exact .ite (fun _ => (hoffered _ _ _).trans (State.onAim_drives _ _)) fun _ => hoffered _ _ _

theorem State.chanceObservation_drives (code : Nat) (x : Angles) : s.DrivesKept (s.chanceObservation code x) := by
  unfold State.chanceObservation
  split
  · exact .refl s
  · exact .after (State.giveObservation_drives _ _) (.beside rfl rfl rfl)

theorem State.finishAim_drives (o : AimOutcome) (defer : Option Nat) : s.DrivesKept (s.finishAim o defer) := by
  have hclosed := s.closeObservation_drives none true
  unfold State.finishAim
  dsimp only
  split
  · exact hclosed.trans (.beside rfl rfl rfl)
  · exact hclosed.trans (.framed (by simp))

/-! ### Updates of both axes -/

theorem State.moveAxes_drives (x : Angles) : s.DrivesKept (s.moveAxes x) :=
  .of_drives (Drive.move_kept _ _ _ _ _) (Drive.move_kept _ _ _ _ _) rfl

theorem State.adjustAxes_drives (x : Angles) : s.DrivesKept (s.adjustAxes x) :=
  .of_drives (Drive.adjust_kept _ _ _ _) (Drive.adjust_kept _ _ _ _) rfl

theorem State.stopAxis_drives (ax : Axis) : s.DrivesKept (s.stopAxis ax) := .onDrive (Drive.stop_kept _ _ _)

theorem State.stopAxes_drives : s.DrivesKept s.stopAxes := (s.stopAxis_drives .hz).trans (State.stopAxis_drives _ .vt)

/-! ### The selection -/

theorem State.handOver_drives (slot : Nat) (r : TargetRecord) (d : Direction) : s.DrivesKept (s.handOver slot r d) := by
  have haimed : s.DrivesKept (s.aimedAt slot r d) :=
    .after (t := (s.setRecord slot (some { r with state := .active })).enter .slewing) (.beside rfl rfl rfl)
      (.framed (by simp))
  have hoffered : s.DrivesKept ((s.aimedAt slot r d).offerIntent r d.sd) :=
    haimed.trans (.ite (fun _ => State.offerFrame_drives _ _) fun _ => .refl _)
  exact hoffered.trans (State.moveAxes_drives _ _)

theorem State.ordinaryPass_drives : s.DrivesKept s.ordinaryPass := by
  have hlooked : s.DrivesKept { s with table := s.lookedTable 0 s.table } := .beside rfl rfl rfl
  unfold State.ordinaryPass
  dsimp only
  split
  · exact hlooked.trans (State.handOver_drives _ _ _ _)
  · exact hlooked

theorem State.dropForced_drives : s.DrivesKept s.dropForced.ordinaryPass :=
  .after (State.ordinaryPass_drives _) (.beside rfl rfl rfl)

theorem State.forcedIdle_drives (i : Nat) (r : TargetRecord) : s.DrivesKept (s.forcedIdle i r) := by
  unfold State.forcedIdle
  split
  · exact .after (State.handOver_drives _ i r _) (.beside rfl rfl rfl)
  · exact s.dropForced_drives

theorem State.selection_drives : s.DrivesKept s.selection := by
  unfold State.selection
  split
  · exact s.ordinaryPass_drives
  · split
    · exact s.dropForced_drives
    · split
      · exact s.dropForced_drives
      · split
        · exact s.ordinaryPass_drives
        · exact .ite (fun _ => (s.setRecord_drives _ _).trans (State.forcedIdle_drives _ _ _)) fun _ =>
            s.ordinaryPass_drives
        · exact s.forcedIdle_drives _ _

theorem State.select_drives : s.DrivesKept s.select := .ite (fun _ => s.selection_drives) fun _ => .refl s

/-! ### Aims that end -/

theorem State.enterWaiting_drives : s.DrivesKept s.enterWaiting :=
  (s.enter_drives .waiting).trans (State.select_drives _)

theorem State.endAim_drives (o : AimOutcome) (defer : Option Nat) : s.DrivesKept (s.endAim o defer) :=
  (s.finishAim_drives o defer).trans (State.enterWaiting_drives _)

theorem State.stopAim_drives (o : AimOutcome) : s.DrivesKept (s.stopAim o) :=
  (s.finishAim_drives o none).trans (State.enter_drives _ .stopped)

theorem State.engineFault_drives (ax : Axis) : s.DrivesKept (s.engineFault ax) := by
  unfold State.engineFault
  split
  · exact .refl s
  · exact s.enter_drives .stopped
  · exact s.stopAim_drives .faulted
  · exact (s.closeObservation_drives none true).trans <|
      (State.stopAxis_drives _ (otherAxis ax)).trans (State.stopAim_drives _ .faulted)

theorem State.faultDrive_drives (ax : Axis) (code : FaultCode) : s.DrivesKept (s.faultDrive ax code) :=
  .ite (fun _ => .refl s) fun _ => (State.DrivesKept.onDrive (Drive.takeFault_kept _ _ code)).trans <|
    (State.raise_drives _ .axisFault).trans (State.engineFault_drives _ ax)

/-! ### Attempts, search positions and the slew -/

theorem State.endAttempt_drives (lost : Bool) : s.DrivesKept (s.endAttempt lost) := by
  unfold State.endAttempt
  split
  · exact .refl s
  · split
    · exact s.endAim_drives .missed none
    · exact (s.onAim_drives _).trans <| (State.enter_drives _ .searching).trans (State.moveAxes_drives _ _)

theorem State.searchAt_drives (index : Nat) : s.DrivesKept (s.searchAt index) := by
  unfold State.searchAt
  split
  · exact .refl s
  · exact (s.onAim_drives _).trans <| (State.enter_drives _ .searching).trans (State.moveAxes_drives _ _)

theorem State.countWindow_drives : s.DrivesKept s.countWindow := by
  unfold State.countWindow
  split
  · exact .refl s
  · have hcounted := s.onAim_drives fun x => { x with dwellCount := x.dwellCount + 1 }
    have hended := hcounted.trans (State.endAttempt_drives _ false)
    have hsearch := fun index => hcounted.trans (State.searchAt_drives _ index)
    exact .ite
      (fun _ => .ite (fun _ => hcounted) fun _ => .ite (fun _ => hended) fun _ => hsearch _)
      fun _ => .ite (fun _ => hcounted) fun _ => .ite (fun _ => hended) fun _ => hsearch _

theorem State.enterAcquiring_drives : s.DrivesKept s.enterAcquiring := (s.onAim_drives _).trans (State.enter_drives _ _)

theorem State.slewEnd_drives : s.DrivesKept s.slewEnd := by
  unfold State.slewEnd
  split
  · exact .refl s
  · split
    · exact s.enterAcquiring_drives
    · exact .ite
        (fun _ => (s.onAim_drives _).trans <| (State.onAim_drives _ _).trans (State.moveAxes_drives _ _))
        fun _ => (s.onAim_drives _).trans (State.enterAcquiring_drives _)

theorem State.takeArrived_drives (ax : Axis) : s.DrivesKept (s.takeArrived ax) := by
  unfold State.takeArrived
  split
  · exact .refl s
  · have harrived := s.onAim_drives fun x => match ax with
      | .hz => { x with awaitHz := false }
      | .vt => { x with awaitVt := false }
    refine .ite (fun _ => .refl s) fun _ => .ite (fun _ => .refl s) fun _ => .ite (fun _ => harrived) fun _ => ?_
    exact .ite (fun _ => harrived.trans (State.slewEnd_drives _)) fun _ => harrived.trans (State.beginDwell_drives _)

/-! ### Lock and windows -/

theorem State.lock_drives (x : Angles) : s.DrivesKept (s.lock x) := .framed (by simp)

theorem State.wrongPrism_drives (w : WindowReport) : s.DrivesKept (s.wrongPrism w) := by
  unfold State.wrongPrism
  split
  · exact (s.chanceObservation_drives _ _).trans (State.endAttempt_drives _ false)
  · exact s.endAttempt_drives false

theorem State.centringOwn_drives (w : WindowReport) : s.DrivesKept (s.centringOwn w) := by
  unfold State.centringOwn
  split
  · exact .refl s
  · have hcounted := fun f => (s.adjustAxes_drives w.angles).trans (State.onAim_drives _ f)
    exact .ite (fun _ => (hcounted _).trans (State.lock_drives _ _)) fun _ => hcounted _

theorem State.searchWindow_drives (a : Aim) (w : WindowReport) : s.DrivesKept (s.searchWindow a w) :=
  .ite
    (fun _ => .ite (fun _ => s.wrongPrism_drives w) fun _ =>
      (s.onAim_drives _).trans <| (State.enter_drives _ .centring).trans (State.centringOwn_drives _ w))
    fun _ => s.countWindow_drives

theorem State.centringWindow_drives (a : Aim) (w : WindowReport) : s.DrivesKept (s.centringWindow a w) := by
  have hlost := s.onAim_drives fun x => { x with inTolerance := 0, mixed := 0, nonOwn := x.nonOwn + 1 }
  have hother := State.DrivesKept.ite (c := 3 ≤ a.nonOwn + 1)
    (fun _ => hlost.trans (State.endAttempt_drives _ true)) fun _ => hlost
  unfold State.centringWindow
  split
  · exact .ite (fun _ => s.wrongPrism_drives w) fun _ => s.centringOwn_drives w
  · exact .ite (fun _ => (s.onAim_drives _).trans (State.endAim_drives _ .yielded _)) fun _ =>
      .ite (fun _ => (s.onAim_drives _).trans (State.endAttempt_drives _ false)) fun _ => s.onAim_drives _
  all_goals exact hother

theorem State.trackingWindow_drives (a : Aim) (w : WindowReport) : s.DrivesKept (s.trackingWindow a w) :=
  .ite (fun _ => (s.adjustAxes_drives _).trans (State.onAim_drives _ _)) fun _ =>
    .ite
      (fun _ => .ite (fun _ => (s.onAim_drives _).trans (State.endAim_drives _ .yielded _)) fun _ => s.onAim_drives _)
      fun _ => .ite (fun _ => (s.onAim_drives _).trans (State.endAim_drives _ .trackLost none)) fun _ => s.onAim_drives _

theorem State.takeWindow_drives (w : WindowReport) : s.DrivesKept (s.takeWindow w) := by
  unfold State.takeWindow
  split
  · exact .refl s
  · rename_i a _
    split
    · exact s.searchWindow_drives a w
    · exact .ite (fun _ => s.searchWindow_drives a w) fun _ => .refl s
    · exact s.centringWindow_drives a w
    · exact .ite (fun _ => s.adjustAxes_drives _) fun _ => .refl s
    · exact s.trackingWindow_drives a w
    all_goals exact .refl s

/-! ### Suspension and the site hold -/

theorem State.suspendAim_drives : s.DrivesKept s.suspendAim := .framed (by simp [State.suspendAim_line])

theorem State.resumeAim_drives (u : Suspension) (r : TargetRecord) (d : Direction) :
    s.DrivesKept (s.resumeAim u r d) := by
  have hdropped : s.DrivesKept { s with engine := { s.engine with suspension := none } } := .beside rfl rfl rfl
  exact .ite (fun _ => hdropped.trans <| (State.onAim_drives _ _).trans (State.searchAt_drives _ _)) fun _ =>
    hdropped.trans <| (State.onAim_drives _ _).trans <| (State.enter_drives _ .slewing).trans (State.moveAxes_drives _ _)

theorem State.tryResume_drives : s.DrivesKept s.tryResume := by
  unfold State.tryResume
  refine .ite (fun _ => ?_) fun _ => .refl s
  split
  · refine .ite (fun _ => s.endAim_drives .abandoned none) fun _ => ?_
    split
    · exact .after (State.enterWaiting_drives _) (.beside rfl rfl rfl)
    · split
      · exact s.resumeAim_drives _ _ _
      · split
        · exact s.endAim_drives _ none
        · exact s.endAim_drives .abandoned none
  · exact .refl s

/-- The start of the hold brakes both axes (R123). -/
theorem State.holdBegins_drives : s.DrivesKept s.holdBegins :=
  (s.raise_drives .holdChanged).trans <| (State.suspendAim_drives _).trans <|
    (State.DrivesKept.onDrive (Drive.holdStart_kept _ _)).trans (.onDrive (Drive.holdStart_kept _ _))

/-- After the start of the hold both axes stand still, however they stood before it (R123). -/
theorem State.holdBegins_still : s.holdBegins.stillInHold := fun _ =>
  ⟨Drive.holdStart_still _, Drive.holdStart_still _⟩

theorem State.holdEnds_drives (h : s.held = false) : s.DrivesKept s.holdEnds := by
  have hreleased : s.DrivesKept (((s.raise .holdChanged).onDrive .hz (Drive.holdEnd .hz s.clock)).onDrive .vt
      (Drive.holdEnd .vt s.clock)) :=
    .of_drives (h ▸ Drive.holdEnd_kept _ _ _) (h ▸ Drive.holdEnd_kept _ _ _) rfl
  exact hreleased.trans <| (State.select_drives _).trans (State.tryResume_drives _)

/-- A change of the hold's sources, with the signals that follow it (R169, R173): at a start the axes are braked, and at
an end the hold asks nothing of them. -/
theorem State.withHold_drives {change : State → State} (hz : (change s).hz = s.hz) (vt : (change s).vt = s.vt) :
    s.DrivesKept (s.withHold change) := by
  have hdrives : s.drivesConsistent → (change s).drivesConsistent := by
    unfold State.drivesConsistent
    rw [hz, vt]
    exact id
  unfold State.withHold
  rcases (change s).signalHold_cases s.held with ⟨-, -, he⟩ | ⟨-, hover, he⟩ | ⟨hsame, he⟩ <;> rw [he]
  · exact ⟨fun h => (State.holdBegins_drives _).consistent (hdrives h), fun _ => State.holdBegins_still _⟩
  · have hends := (change s).holdEnds_drives hover
    exact ⟨fun h => hends.consistent (hdrives h), fun _ => hends.still fun h => by rw [hover] at h; cases h⟩
  · exact .beside hz vt hsame.symm

theorem State.holdInRises_drives : s.DrivesKept s.holdInRises :=
  .trans (s.withHold_drives rfl rfl) (State.requestBreak_drives _)

theorem State.settled_drives (ax : Axis) : s.DrivesKept (s.settled ax) := by
  have hmarked : s.DrivesKept { s with axesReadyRaised := true } := .beside rfl rfl rfl
  exact .ite
    (fun _ => .after (State.tryResume_drives _)
      (.ite (fun _ => hmarked.trans (State.raise_drives _ .axesReady)) fun _ => .refl s))
    fun _ => .refl s

/-! ### The line and the peers -/

theorem State.endCharacter_drives (c : LineChar) : s.DrivesKept (s.endCharacter c) := by
  unfold State.endCharacter
  split
  · refine .ite (fun _ => .refl s) fun _ => ?_
    rw [State.atMarkFrom_eq]
    exact .beside rfl rfl rfl
  all_goals
    rw [State.atMarkFrom_eq]
    exact .beside rfl rfl rfl

/-- A character takes the receiver neither into BREAK nor out of it (R144, R149). -/
theorem State.receive_break_iff (c : LineChar) : (s.receive c).line.receiver = .break ↔ s.line.receiver = .break := by
  unfold State.receive
  dsimp only
  split
  · rfl
  · split <;> simp_all
  · simp_all
  · rename_i hno _
    unfold SiteLine.takeMarked
    split <;> simp_all
  · rfl

theorem State.receive_drives (c : LineChar) : s.DrivesKept (s.receive c) := by
  refine .beside rfl rfl ?_
  unfold State.held
  rw [State.receive_peers, decide_eq_decide.mpr (s.receive_break_iff c)]

theorem State.takeEcho_drives (out : Sending) (c : LineChar) : s.DrivesKept (s.takeEcho out c) := by
  unfold State.takeEcho
  refine .ite (fun _ => .ite (fun _ => ?_) fun _ => ?_) fun _ => (s.endCharacter_drives c).trans (.beside rfl rfl rfl)
  all_goals
    rw [State.atMarkFrom_eq]
    exact .beside rfl rfl rfl

theorem State.lineCharacter_drives (c : LineChar) : s.DrivesKept (s.lineCharacter c) := by
  unfold State.lineCharacter
  split
  · exact s.takeEcho_drives _ c
  · exact (s.endCharacter_drives c).trans (State.receive_drives _ c)

theorem State.beginSend_drives : s.DrivesKept s.beginSend := by
  unfold State.beginSend
  split <;> exact .beside rfl rfl rfl

theorem State.onPeers_drives (f : List (Option Peer) → List (Option Peer)) : s.DrivesKept (s.onPeers f) :=
  .beside rfl rfl rfl

theorem State.deferRequest_drives (prism t : Nat) : s.DrivesKept (s.deferRequest prism t) := by
  unfold State.deferRequest
  split
  · exact .refl s
  · split
    · exact .refl s
    · exact .ite (fun _ => s.endAim_drives .yielded _) fun _ => (s.setRecord_drives _ _).trans (State.select_drives _)

theorem State.offerPeerFix_drives (station prism : Nat) (pos : Grid) (quality age : Nat) :
    s.DrivesKept (s.offerPeerFix station prism pos quality age) := by
  unfold State.offerPeerFix
  split
  · exact .refl s
  · split
    · exact .refl s
    · split
      · exact .refl s
      · split
        · exact .refl s
        · exact (s.setRecord_drives _ _).trans (State.select_drives _)

theorem State.compareIntent_drives (sender prism distance hold : Nat) :
    s.DrivesKept (s.compareIntent sender prism distance hold) := by
  unfold State.compareIntent
  split
  · exact .refl s
  · exact .ite (fun _ => s.deferRequest_drives prism _) fun _ => .refl s

theorem State.takeFrame_drives (sender : Nat) (frame : Received) : s.DrivesKept (s.takeFrame sender frame) := by
  cases frame with
  | presence run pos => exact s.onPeers_drives _
  | sighting prism pos quality age => exact (s.onPeers_drives _).trans (State.offerPeerFix_drives _ _ _ _ _ _)
  | intent prism distance hold => exact (s.onPeers_drives _).trans (State.compareIntent_drives _ _ _ _ _)

theorem State.forceListenOnly_drives : s.DrivesKept s.forceListenOnly := by
  unfold State.forceListenOnly
  dsimp only
  split <;> exact .beside rfl rfl rfl

/-- A frame ends in RECEIVING, which is no source of the hold (R146, R169). -/
theorem State.endFrame_drives (h : s.frameOver = true) : s.DrivesKept s.endFrame := by
  have hreceiver : s.line.receiver = .receiving := by
    simp only [State.frameOver, Bool.and_eq_true, decide_eq_true_eq] at h
    exact h.1.1
  have hidle : s.DrivesKept { s with line := { s.line with receiver := .idle, assembler := [] } } :=
    .beside rfl rfl (by simp [State.held, hreceiver])
  unfold State.endFrame
  dsimp only
  split
  · exact hidle
  · split
    · exact hidle
    · exact hidle.trans (.after (State.forceListenOnly_drives _) (.beside rfl rfl rfl))
    · exact hidle.trans (State.takeFrame_drives _ _ _)

theorem State.offerPresence_drives : s.DrivesKept s.offerPresence := (s.offerFrame_drives _).trans (.beside rfl rfl rfl)


end Sys2Proof.Machine

namespace Sys2Proof.Machine

open Sys2Proof
open Host (Outcome)

variable (s : State)

/-! ### The drives over the host commands -/

/-- Every way a host command is taken keeps the laws of the drives where its own rule does. -/
theorem State.takeCommand_drives {α : Type} {c : CommandCode} {args : Option α} {rule : α → State → Taken}
    (h : ∀ a, s.DrivesKept (rule a s).state) : s.DrivesKept (s.takeCommand c args rule) := by
  rcases s.takeCommand_cases c args rule with ⟨-, he⟩ | ⟨-, -, he⟩ | ⟨-, -, -, -, he⟩ | ⟨a, -, -, -, he⟩ <;> rw [he]
  · exact s.respond_drives _ _
  · exact s.respond_drives _ _
  · exact s.respond_drives _ _
  · exact (h a).trans (State.respond_drives _ _ _)

theorem configureRule_drives (a : ConfigureArgs) : s.DrivesKept (configureRule a s).state := by
  unfold configureRule
  split
  · exact .refl s
  · split
    · exact .refl s
    · exact .after (State.offerPresence_drives _)
        (.of_drives (Drive.configure_kept _ _ _ _) (Drive.configure_kept _ _ _ _) rfl)

theorem setStationRule_drives (a : StationArgs) : s.DrivesKept (setStationRule a s).state := by
  unfold setStationRule
  split
  · exact .refl s
  · split
    · exact .refl s
    · exact .beside rfl rfl rfl

theorem loadTargetRule_drives (a : LoadArgs) : s.DrivesKept (loadTargetRule a s).state := by
  unfold loadTargetRule
  split
  · exact .refl s
  · split
    · exact .refl s
    · split
      · exact .refl s
      · split
        · exact .refl s
        · exact (s.setRecord_drives _ _).trans (State.select_drives _)

theorem editTargetRule_drives (a : EditArgs) : s.DrivesKept (editTargetRule a s).state := by
  unfold editTargetRule
  split
  · exact .refl s
  · split
    · exact .refl s
    · exact (s.setRecord_drives _ _).trans (State.select_drives _)

theorem State.retired_drives (i : Nat) : s.DrivesKept (s.retired i) :=
  .after (State.enter_drives _ .waiting) (.beside rfl rfl rfl)

theorem State.retireAim_drives (i : Nat) : s.DrivesKept (s.retireAim i) := by
  by_cases hs : s.engine.state = .suspended
  · rw [State.retireAim_suspended hs]
    exact (s.retired_drives i).trans (State.select_drives _)
  · rw [State.retireAim_running hs]
    exact (s.closeObservation_drives none false).trans <| (State.stopAxes_drives _).trans <|
      (State.retired_drives _ i).trans (State.select_drives _)

theorem retireTargetRule_drives (prism : Nat) : s.DrivesKept (retireTargetRule prism s).state := by
  unfold retireTargetRule
  split
  · exact .refl s
  · split
    · exact .refl s
    · split
      · exact s.retireAim_drives _
      · exact s.setRecord_drives _ _

theorem setSectorRule_drives (a : SectorArgs) : s.DrivesKept (setSectorRule a s).state := by
  unfold setSectorRule
  split
  · exact .refl s
  · split
    · exact .refl s
    · split
      · exact .refl s
      · exact .after (State.select_drives _) (.beside rfl rfl rfl)

theorem runRule_drives (u : Unit) : s.DrivesKept (runRule u s).state := by
  unfold runRule
  split
  · split
    · exact s.enterWaiting_drives
    · exact .refl s
  · exact .refl s

theorem State.pauseEngine_drives : s.DrivesKept s.pauseEngine := by
  unfold State.pauseEngine
  split
  · exact .refl s
  · exact s.enter_drives .stopped
  · exact s.stopAim_drives .aborted
  · exact (s.closeObservation_drives none true).trans <|
      (State.stopAxes_drives _).trans (State.stopAim_drives _ .aborted)

theorem aimNowRule_drives (prism : Nat) : s.DrivesKept (aimNowRule prism s).state := by
  unfold aimNowRule
  split
  · exact .refl s
  · split
    · exact .refl s
    · split
      · exact .refl s
      · split
        · exact .refl s
        · exact .after (State.select_drives _) (.beside rfl rfl rfl)

theorem rangeRule_drives (a : RangeArgs) : s.DrivesKept (rangeRule a s).state := by
  have hclosed := s.closeObservation_drives (some a.distance) true
  unfold rangeRule
  split
  · exact .refl s
  · split
    · exact .ite (fun _ => hclosed.trans (State.endAim_drives _ .observed none)) fun _ => hclosed
    · exact .refl s

theorem State.clearFaultOf_drives (ax : Axis) : s.DrivesKept (s.clearFaultOf ax) := by
  have hcleared : s.DrivesKept (s.onDrive ax (Drive.clearFault ax s.held s.clock)) :=
    .onDrive (Drive.clearFault_kept _ _ _ _)
  exact .ite (fun _ => hcleared.trans (State.faultDrive_drives _ ax .overcurrent)) fun _ => hcleared

theorem clearFaultRule_drives (axis : Nat) : s.DrivesKept (clearFaultRule axis s).state := by
  unfold clearFaultRule
  split
  · exact .refl s
  · rename_i h v _
    have hhz := State.DrivesKept.ite (c := h = true) (fun _ => s.clearFaultOf_drives .hz) fun _ => .refl s
    exact .ite (fun _ => hhz.trans (State.clearFaultOf_drives _ .vt)) fun _ => hhz

theorem State.resetCommand_drives : s.DrivesKept s.resetCommand :=
  .of_drives (Drive.resetCommand_kept _ _ _ _ _) (Drive.resetCommand_kept _ _ _ _ _) rfl

/-- After power-on no hold is in force but one that HOLD_IN then starts (R171). -/
theorem execPowerOnReset_drives (holdIn : Bool) {t : State} (h : execPowerOnReset holdIn s = .next t) :
    s.DrivesKept t := by
  cases h
  have hreset : s.DrivesKept { State.reset with
      hz := { Drive.reset with bridgeFault := s.hz.bridgeFault }
      vt := { Drive.reset with bridgeFault := s.vt.bridgeFault }
      choices := s.choices + 1
      pending := s.pending } :=
    .of_released rfl (fun _ => Drive.reset_consistent.congr rfl rfl rfl rfl rfl rfl)
      fun _ => Drive.reset_consistent.congr rfl rfl rfl rfl rfl rfl
  exact .ite (fun _ => hreset.trans (State.holdInRises_drives _)) fun _ => hreset

theorem execResponseRead_drives (count : Nat) {t : State} (h : execResponseRead count s = .next t) :
    s.DrivesKept t := by
  cases h
  split
  · exact .refl s
  · exact .ite (fun _ => .refl s) fun _ => .beside rfl rfl rfl

/-! ### The drives over the events -/

/-- Where the outcome is a next state, the laws of the drives are kept in it. -/
def State.DrivesKeptNext (s : State) (o : Outcome State Fault Refusal) : Prop := ∀ t, o = .next t → s.DrivesKept t

variable {s}

theorem State.DrivesKept.next {t : State} (h : s.DrivesKept t) : s.DrivesKeptNext (.next t) := by
  rintro u ⟨⟩
  exact h

theorem State.DrivesKept.lit {t : State} (h : s.DrivesKept t) : s.DrivesKeptNext (lit t) :=
  (h.trans t.followLight_drives).next

variable (s)

theorem execDueTimeExpiry_drives (i : Nat) : s.DrivesKeptNext (execDueTimeExpiry i s) := by
  refine .next ?_
  split
  · exact .refl s
  · exact .ite (fun _ => (s.setRecord_drives _ _).trans (State.select_drives _)) fun _ => .refl s

theorem execDeferUntilExpiry_drives (i : Nat) : s.DrivesKeptNext (execDeferUntilExpiry i s) := by
  refine .next ?_
  split
  · exact .refl s
  · exact .ite (fun _ => (s.setRecord_drives _ _).trans (State.select_drives _)) fun _ => .refl s

theorem State.takeSample_drives : s.DrivesKept s.takeSample := by
  have hnext := s.onAim_drives fun a => { a with nextSample := a.nextSample.map (· + 100) }
  unfold State.takeSample
  dsimp only
  split
  · exact hnext
  · split
    · exact hnext.trans <| (State.closeObservation_drives _ none true).trans <|
        (State.openObservation_drives _ _ _).trans (State.onAim_drives _ _)
    · exact hnext

theorem State.endDwell_drives : s.DrivesKept s.endDwell := by
  have hover := s.onAim_drives fun a => { a with nextSample := none, dwellDeadline := none }
  unfold State.endDwell
  dsimp only
  split
  · exact hover.trans <| (State.onAim_drives _ _).trans (State.enter_drives _ .ranging)
  · exact hover.trans (State.endAim_drives _ .observed none)

theorem State.readAxis_drives (ax : Axis) (raw : Int) : s.DrivesKept (s.readAxis ax raw) :=
  .onDrive (Drive.read_kept _ _ _ _ _)

theorem State.arrivals_drives (ax : Axis) : s.DrivesKept (s.arrivals ax) := by
  refine .ite (fun harrives => ?_) fun _ => .ite (fun _ => ?_) fun _ => .refl s
  · have hmoving : (s.drive ax).state = .moving := of_decide_eq_true (Bool.and_eq_true_iff.mp harrives).1
    exact (State.DrivesKept.onDrive (Drive.arrive_kept _ (.inl hmoving))).trans (State.takeArrived_drives _ ax)
  · exact (State.DrivesKept.onDrive (.beside rfl)).trans (State.takeArrived_drives _ ax)

theorem State.limitFault_drives (ax : Axis) : s.DrivesKept (s.limitFault ax) :=
  (State.DrivesKept.onDrive (.beside rfl)).trans (State.faultDrive_drives _ ax .limit)

/-- An edge pair completes in INDEXING, in which no hold finds the drive (R110). -/
theorem State.pairComplete_drives {ax : Axis} (h : (s.drive ax).state = .indexing) (mid : Int) :
    s.DrivesKept (s.pairComplete ax mid) := by
  have hset : s.DrivesKept { s.onDrive ax (Drive.setIndex ax mid s.clock) with axesReadyRaised := false } :=
    (State.DrivesKept.onDrive (Drive.setIndex_kept _ ax _ mid h)).trans (.beside rfl rfl rfl)
  exact .ite (fun _ => hset.trans (State.limitFault_drives _ ax)) fun _ => hset

theorem Drive.indexing_of_edgePair {rising : Bool} {raw mid : Int} {d : Drive} (h : d.edgePair rising raw = some mid) :
    d.state = .indexing := by
  unfold Drive.edgePair at h
  split at h
  · rename_i hs
    exact hs.1
  · cases h

theorem execIndexEdge_drives (ax : Axis) (rising : Bool) (raw rest : Int) :
    s.DrivesKeptNext (execIndexEdge ax rising raw rest s) := by
  have hread := s.readAxis_drives ax raw
  refine .lit (.ite (fun _ => .ite (fun _ => hread.trans (.onDrive (.beside rfl))) fun _ => hread) fun _ => ?_)
  split
  · rename_i mid hpair
    have hindexing : (((s.readAxis ax raw).readAxis ax rest).drive ax).state = .indexing := by
      simpa [State.readAxis] using Drive.indexing_of_edgePair hpair
    exact hread.trans <| (State.readAxis_drives _ ax rest).trans (State.pairComplete_drives _ hindexing mid)
  · exact hread

theorem execSettleEnd_drives (ax : Axis) (raw : Int) : s.DrivesKeptNext (execSettleEnd ax raw s) := by
  have hread := s.readAxis_drives ax raw
  refine .lit (.ite (fun hover => ?_) fun _ => hread)
  have hsettling : ((s.readAxis ax raw).drive ax).state = .settling :=
    of_decide_eq_true (Bool.and_eq_true_iff.mp hover).1
  exact hread.trans <|
    (State.DrivesKept.onDrive (Drive.endSettle_kept _ ax _ hsettling)).trans (State.settled_drives _ ax)

theorem execFineArrival_drives (ax : Axis) (raw : Int) : s.DrivesKeptNext (execFineArrival ax raw s) := by
  have hread := s.readAxis_drives ax raw
  refine .lit (.ite (fun harrives => ?_) fun _ => hread)
  have hfine : ((s.readAxis ax raw).drive ax).state = .fine := of_decide_eq_true (Bool.and_eq_true_iff.mp harrives).1
  exact hread.trans (.onDrive (Drive.arrive_kept _ (.inr hfine)))

theorem execProgressIntervalEnd_drives (ax : Axis) (raw : Int) :
    s.DrivesKeptNext (execProgressIntervalEnd ax raw s) := by
  have hread := s.readAxis_drives ax raw
  refine .lit ?_
  split
  · exact hread
  · exact .ite (fun _ => hread.trans (State.faultDrive_drives _ ax .stall)) fun _ =>
      hread.trans (.onDrive (.beside rfl))

theorem State.endWindow_drives (w : Window) : s.DrivesKept (s.endWindow w) := by
  unfold State.endWindow
  split
  · exact .after (State.takeWindow_drives _ _) (.beside rfl rfl rfl)
  · exact .beside rfl rfl rfl

theorem execWindowEnd_drives (hzRaw vtRaw : Int) : s.DrivesKeptNext (execWindowEnd hzRaw vtRaw s) := by
  have hread := (s.readAxis_drives .hz hzRaw).trans (State.readAxis_drives _ .vt vtRaw)
  refine .lit ?_
  split
  · exact .ite (fun _ => hread.trans (State.endWindow_drives _ _)) fun _ => hread
  · exact hread

/-! ### Every command, and the step -/

/-- Every command keeps the records of the drives consistent, and both axes still in the hold. -/
theorem exec_drives (c : Instr) : s.DrivesKeptNext (exec c s) :=
  match c with
  | .powerOnReset holdIn => fun _ => execPowerOnReset_drives s holdIn
  | .configure _ => .lit (s.takeCommand_drives (configureRule_drives s))
  | .setStation _ => .lit (s.takeCommand_drives (setStationRule_drives s))
  | .loadTarget _ => .next (s.takeCommand_drives (loadTargetRule_drives s))
  | .editTarget _ => .next (s.takeCommand_drives (editTargetRule_drives s))
  | .retireTarget _ => .lit (s.takeCommand_drives (retireTargetRule_drives s))
  | .readTarget _ => .next (s.takeCommand_drives fun k => .of_eq (readTargetRule_state s k))
  | .setSector _ => .lit (s.takeCommand_drives (setSectorRule_drives s))
  | .readSector _ => .next (s.takeCommand_drives fun a => .of_eq (readSectorRule_state s a))
  | .run _ => .next (s.takeCommand_drives (runRule_drives s))
  | .pause _ => .lit (s.takeCommand_drives fun _ => s.pauseEngine_drives)
  | .aimNow _ => .next (s.takeCommand_drives (aimNowRule_drives s))
  | .range _ => .lit (s.takeCommand_drives (rangeRule_drives s))
  | .takeObservation _ => .next (s.takeCommand_drives fun u => .of_eq (takeObservationRule_state s u))
  | .readStatus _ => .next (s.takeCommand_drives fun _ => .refl s)
  | .readPeers _ => .next (s.takeCommand_drives fun _ => .refl s)
  | .ackEvents _ => .next (s.takeCommand_drives fun _ => .beside rfl rfl rfl)
  | .clearFault _ => .lit (s.takeCommand_drives (clearFaultRule_drives s))
  | .siteHold _ => .next (s.takeCommand_drives fun _ => s.requestBreak_drives)
  | .reset _ => .next (s.takeCommand_drives fun _ => s.resetCommand_drives)
  | .unknownCommand _ => .next (s.respond_drives _ _)
  | .responseRead count => fun _ => execResponseRead_drives s count
  | .dueTimeExpiry i => execDueTimeExpiry_drives s i
  | .deferUntilExpiry i => execDeferUntilExpiry_drives s i
  | .arrived ax raw => .lit ((s.readAxis_drives ax raw).trans (State.arrivals_drives _ ax))
  | .fineArrival ax raw => execFineArrival_drives s ax raw
  | .windowEnd hzRaw vtRaw => execWindowEnd_drives s hzRaw vtRaw
  | .trackSample => .next (.ite (fun _ => s.takeSample_drives) fun _ => .refl s)
  | .trackDwellExpiry => .lit (.ite (fun _ => s.endDwell_drives) fun _ => .refl s)
  | .rangingWaitExpiry => .lit (.ite (fun _ => s.endAim_drives .observed none) fun _ => .refl s)
  | .blockDecay => .next (.ite (fun _ => .beside rfl rfl rfl) fun _ => .refl s)
  | .abandonDeadlineExpiry => .lit (.ite (fun _ => s.endAim_drives .abandoned none) fun _ => .refl s)
  | .settleEnd ax raw => execSettleEnd_drives s ax raw
  | .indexEdge ax rising raw rest => execIndexEdge_drives s ax rising raw rest
  | .vtSeekReversal raw =>
    .lit (.ite (fun _ => (s.readAxis_drives .vt raw).trans (State.DrivesKept.onDrive (ax := .vt) (.beside rfl)))
      fun _ => s.readAxis_drives .vt raw)
  | .seekTravelExhausted ax raw =>
    .lit (.ite (fun _ => (s.readAxis_drives ax raw).trans (State.faultDrive_drives _ ax .indexMissing))
      fun _ => s.readAxis_drives ax raw)
  | .progressIntervalEnd ax raw => execProgressIntervalEnd_drives s ax raw
  | .bridgeFaultInput ax _ =>
    .lit (.ite (fun _ => (State.DrivesKept.onDrive (.beside rfl)).trans (State.faultDrive_drives _ ax .overcurrent))
      fun _ => .onDrive (.beside rfl))
  | .vtLimitCrossing raw =>
    .lit (.ite (fun _ => (s.readAxis_drives .vt raw).trans (State.limitFault_drives _ .vt))
      fun _ => s.readAxis_drives .vt raw)
  | .hzSectorCrossing raw => .lit (s.readAxis_drives .hz raw)
  | .returnPulse _ => .next (.beside rfl rfl rfl)
  | .identityCode _ _ => .next (.beside rfl rfl rfl)
  | .receiveCharacter c => .next (s.lineCharacter_drives c)
  | .frameEnd => .lit (.ite s.endFrame_drives fun _ => .refl s)
  | .breakBegin => .lit (.ite (fun _ => .refl s) fun _ => s.withHold_drives rfl rfl)
  | .breakEnd => .lit (.ite (fun _ => s.withHold_drives rfl rfl) fun _ => .refl s)
  | .accessGapExpiry => .next (.ite (fun _ => s.beginSend_drives) fun _ => .refl s)
  | .echoCharacter c => .next (s.lineCharacter_drives c)
  | .echoTimeout => .next (.ite (fun _ => .beside rfl rfl rfl) fun _ => .refl s)
  | .breakRelease => .next (.ite (fun _ => .beside (by simp) (by simp) (by simp)) fun _ => .refl s)
  | .peerRecordExpiry _ => .next (s.onPeers_drives _)
  | .intentExpiry _ => .next (s.onPeers_drives _)
  | .presenceDeadline => .next (.ite (fun _ => s.offerPresence_drives) fun _ => .refl s)
  | .holdInRising => .lit (.ite (fun _ => .refl s) fun _ => s.holdInRises_drives)
  | .holdInFalling => .lit (.ite (fun _ => s.withHold_drives rfl rfl) fun _ => .refl s)
  | .repeatDeadlineExpiry =>
    .next (.ite (fun _ => .after (State.requestBreak_drives _) (.beside rfl rfl rfl)) fun _ => .refl s)
  | .holdDeadlineExpiry => .lit (.ite (fun _ => s.withHold_drives rfl rfl) fun _ => .refl s)
  | .startBit => .next (.ite (fun _ => .refl s) fun _ => .beside rfl rfl rfl)

theorem State.idle_drives : s.DrivesKept s.idle := by
  unfold State.idle
  split <;> exact .beside rfl rfl rfl

theorem step_drives : s.DrivesKeptNext (step s) := by
  unfold step
  split
  · exact s.idle_drives.next
  · rename_i c rest _
    exact fun t ht => .after (exec_drives { s with pending := rest } c t ht) (.beside rfl rfl rfl)

/-- Settles O5: what the engine asks of a drive a still one discards (R106), and the meanings that release a brake ask
first whether the hold is in force. -/
theorem stepKeepsAxesStillInHold : Obligations.StepKeepsAxesStillInHold := fun s t hs hstep =>
  (step_drives s t hstep).still hs

/-- Settles O6: each operation on a drive writes the optional fields of R105 together with the state that has them. -/
theorem stepKeepsDrivesConsistent : Obligations.StepKeepsDrivesConsistent := fun s t hs hstep =>
  (step_drives s t hstep).consistent hs

end Sys2Proof.Machine

namespace Sys2Proof.Machine

open Sys2Proof

/-! ### The reading of an encoder -/

section Reading

variable (ax : Axis) (raw : Int) (s : State)

@[simp] theorem State.readAxis_clock : (s.readAxis ax raw).clock = s.clock := State.onDrive_clock s ax _

@[simp] theorem State.readAxis_engine : (s.readAxis ax raw).engine = s.engine := State.onDrive_engine s ax _

/-- The position follows the reading (R107). -/
theorem Drive.position_read (first : Nat) (d : Drive) {m o : Int} (hi : d.indexed = true) (hm : d.midpoint = some m)
    (ho : d.offset = some o) : (d.read ax first raw).position ax = some (match ax with
      | .hz => (raw - m + o) % 4000000
      | .vt => raw - m + o) := by
  unfold Drive.position Drive.read
  dsimp only
  rw [hi, hm, ho]
  cases ax <;> rfl

end Reading

/-! ### Fine arrival, reversal and sector crossing -/

theorem Drive.fineArrives_iff {ax : Axis} {d : Drive} :
    d.fineArrives ax = true ↔ d.state = .fine ∧ d.distanceLeft ax ≤ 50 := by
  simp [Drive.fineArrives]

theorem Drive.reverses_iff {d : Drive} :
    d.reverses = true ↔ d.state = .indexing ∧ d.reversed = false ∧ 550000 ≤ d.travel := by
  simp [Drive.reverses, and_assoc]

section Reaches

variable {ax : Axis} {raw : Int} {s u : State} (hu : u = s.readAxis ax raw)
include hu

theorem exec_fineArrival : exec (.fineArrival ax raw) s =
    .next (if (u.drive ax).fineArrives ax then u.onDrive ax Drive.arrive else u).followLight := by
  rw [hu]
  rfl

omit hu in
theorem exec_vtSeekReversal (hu : u = s.readAxis .vt raw) : exec (.vtSeekReversal raw) s =
    .next (if u.vt.reverses then u.onDrive .vt (Drive.reverse s.clock) else u).followLight := by
  rw [hu]
  rfl

end Reaches

/-- Settles O46: each event reads, and acts where its test of the drive holds. -/
theorem driveReachesPosition : Obligations.DriveReachesPosition := by
  intro ax raw s u hu
  refine ⟨fun hs hd => ?arrival, fun h => ?noArrival, fun hax hs hr ht => ?reversal, fun hax h => ?noReversal,
    fun hax => ?crossing⟩
  case arrival =>
    rw [exec_fineArrival hu, if_pos (Drive.fineArrives_iff.mpr ⟨hs, hd⟩)]
    rfl
  case noArrival =>
    rw [exec_fineArrival hu, if_neg]
    rw [Drive.fineArrives_iff]
    rintro ⟨hs, hd⟩
    rcases h with h | h
    · exact h hs
    · omega
  case reversal =>
    subst hax
    rw [exec_vtSeekReversal hu, if_pos (Drive.reverses_iff.mpr ⟨hs, hr, ht⟩)]
    rfl
  case noReversal =>
    subst hax
    rw [exec_vtSeekReversal hu, if_neg]
    rw [Drive.reverses_iff]
    rintro ⟨hs, hr, ht⟩
    rcases h with h | h | h
    · exact h hs
    · rw [hr] at h; cases h
    · omega
  case crossing =>
    subst hax hu
    exact ⟨rfl, fun hi m o hm ho => Drive.position_read .hz raw _ s.hz hi hm ho⟩

/-! ### The end of a settle -/

theorem Drive.settleOver_iff {now : Nat} {d : Drive} :
    d.settleOver now = true ↔ d.state = .settling ∧ ∃ n, d.settleEnd = some n ∧ n ≤ now := by
  unfold Drive.settleOver
  cases d.settleEnd <;> simp

/-- The end of a settle (R112): READY, or the move to the pending target (R113). -/
theorem Drive.endSettle_spec (ax : Axis) (now : Nat) (d : Drive) :
    (d.endSettle ax now).settleEnd = none ∧ (d.endSettle ax now).pendingTarget = none ∧
      (d.pendingTarget = none → (d.endSettle ax now).state = .ready ∧ (d.endSettle ax now).target = d.target) ∧
      ∀ p, d.pendingTarget = some p → (d.endSettle ax now).target = some p ∧
        (d.endSettle ax now).state = if d.distance ax p ≤ 50 then .ready else .moving := by
  unfold Drive.endSettle
  cases hp : d.pendingTarget with
  | none => exact ⟨rfl, rfl, fun _ => ⟨rfl, rfl⟩, fun _ h => by cases h⟩
  | some p =>
    have hdistance : ({ d with state := .ready, settleEnd := none, pendingTarget := none } : Drive).distance ax p =
        d.distance ax p := rfl
    unfold Drive.moveTo Drive.within
    dsimp only
    rw [hdistance]
    refine ⟨?_, ?_, fun h => by (cases h), ?_⟩
    · split <;> rfl
    · split <;> rfl
    · rintro q ⟨⟩
      by_cases hnear : d.distance ax p ≤ 50 <;> simp [hnear]

/-- AXES_READY is raised when a settle has ended with both drives READY, once for each index set (R112). -/
def State.axesSettled (s : State) : State :=
  if s.bothReady = true ∧ s.axesReadyRaised = false then { s with axesReadyRaised := true }.raise .axesReady else s

/-- A drive that is not READY at the end of its settle raises nothing, and resumes nothing (R102, R112). -/
theorem State.settled_eq (ax : Axis) (s : State) : s.settled ax = s.axesSettled.tryResume := by
  unfold State.settled
  split
  · rfl
  · rename_i hno
    have hready : ¬ s.bothReady = true := by
      cases ax <;> simp_all [State.bothReady]
    rw [State.axesSettled, if_neg fun h => hready h.1, State.tryResume, if_neg fun h => hready h.2.2]

theorem State.axesSettled_raised {s : State} (h : s.bothReady = true) (hno : s.axesReadyRaised = false) :
    s.axesSettled = { s with axesReadyRaised := true }.raise .axesReady := if_pos ⟨h, hno⟩

theorem State.axesSettled_unraised {s : State} (h : s.bothReady = false ∨ s.axesReadyRaised = true) :
    s.axesSettled = s := by
  refine if_neg ?_
  rintro ⟨hready, hno⟩
  rcases h with h | h
  · rw [hready] at h; cases h
  · rw [hno] at h; cases h

theorem State.axesSettled_frame (s : State) : s.axesSettled =
    { s with axesReadyRaised := s.axesSettled.axesReadyRaised, link := s.axesSettled.link } := by
  unfold State.axesSettled
  split <;> rfl

theorem State.axesSettled_drive (ax : Axis) (s : State) : s.axesSettled.drive ax = s.drive ax := by
  rw [State.axesSettled_frame]
  cases ax <;> rfl

theorem State.bothReady_iff {s : State} (ax : Axis) :
    s.bothReady = true ↔ (s.drive ax).state = .ready ∧ (s.drive (otherAxis ax)).state = .ready := by
  cases ax <;> simp [State.bothReady, otherAxis, and_comm]

theorem exec_settleEnd {ax : Axis} {raw : Int} {s u : State} (hu : u = s.readAxis ax raw) :
    exec (.settleEnd ax raw) s = .next (if (u.drive ax).settleOver s.clock then
      (u.onDrive ax (Drive.endSettle ax s.clock)).settled ax else u).followLight := by
  have hclock : u.clock = s.clock := by rw [hu, State.readAxis_clock]
  rw [← hclock, hu]
  rfl

/-- Settles O47: the settle's end at the drive by `Drive.endSettle_spec`, the report of both axes by
`State.settled_eq`. -/
theorem settleEndsReady : Obligations.SettleEndsReady := by
  intro ax raw s u d hu hd
  rw [exec_settleEnd hu, ← hd]
  refine ⟨fun h => ?early, fun n hs hn hle => ?ended⟩
  case early =>
    rw [if_neg]
    rw [Drive.settleOver_iff]
    rintro ⟨hs, n, hn, hle⟩
    rcases h with h | h
    · exact h hs
    · exact Nat.not_le.mpr (h n hn) hle
  case ended =>
    rw [if_pos (Drive.settleOver_iff.mpr ⟨hs, n, hn, hle⟩), State.settled_eq]
    obtain ⟨v, hv⟩ : ∃ v, v = u.onDrive ax (Drive.endSettle ax s.clock) := ⟨_, rfl⟩
    have hdrive : v.drive ax = d.endSettle ax s.clock := by rw [hv, State.onDrive_drive, hd]
    have hother : v.drive (otherAxis ax) = s.drive (otherAxis ax) := by
      rw [hv, State.onDrive_otherDrive, hu, State.readAxis, State.onDrive_otherDrive]
    have hframe : v = { s with hz := v.hz, vt := v.vt } := by rw [hv, hu]; cases ax <;> rfl
    have hraised : v.axesReadyRaised = s.axesReadyRaised := by rw [hframe]
    have hlink : v.link = s.link := by rw [hframe]
    have hw := v.axesSettled_frame
    obtain ⟨hend, hpending, hready, hmoved⟩ := d.endSettle_spec ax s.clock
    refine ⟨v.axesSettled, by rw [hv], fun hrun => ?_, ?_, ?_, ?_⟩
    · refine if_neg fun h => hrun ?_
      rw [← h.1, hw, hframe]
    · rw [hw, hframe]
    · rw [State.axesSettled_drive, hother]
    · rw [State.axesSettled_drive, hdrive]
      refine ⟨hend, hpending, hready, hmoved, fun hd hs hno => ?_, fun h => ?_⟩
      · rw [State.axesSettled_raised ((State.bothReady_iff ax).mpr ⟨hdrive ▸ hd, hother ▸ hs⟩) (hraised.trans hno),
          ← hlink]
        exact ⟨rfl, rfl⟩
      · rw [State.axesSettled_unraised]
        · exact ⟨hraised, hlink⟩
        · rw [← Bool.not_eq_true, State.bothReady_iff ax, hdrive, hother, hraised]
          tauto

/-! ### A fault taken with the engine STOPPED -/

/-- With the engine STOPPED a fault is the drive's own, and the event's (R120). -/
theorem State.faultDrive_stopped {s : State} (ax : Axis) (code : FaultCode) (hs : s.engine.state = .stopped)
    (hd : (s.drive ax).state ≠ .fault) : s.faultDrive ax code =
      (s.onDrive ax (Drive.takeFault code)).raise .axisFault := by
  have hengine : ((s.onDrive ax (Drive.takeFault code)).raise .axisFault).engine.state = .stopped := by simpa using hs
  rw [State.faultDrive, if_neg hd, State.engineFault, hengine]

theorem Drive.takeFault_eq (code : FaultCode) {d : Drive} (h : d.state ≠ .fault) : d.takeFault code = { d with
    state := .fault, fault := some code, target := none, pendingTarget := none, returnState := none, capture := none
    travel := 0, settleEnd := none, interval := none, reporting := false } := if_neg h

/-! ### Index edges -/

theorem Drive.edgePair_complete {raw c : Int} {d : Drive} (hs : d.state = .indexing) (hc : d.capture = some c) :
    d.edgePair false raw = some ((c + raw) / 2) := by
  simp [Drive.edgePair, hs, hc]

theorem Drive.edgePair_none {raw : Int} {d : Drive} (h : d.state ≠ .indexing ∨ d.capture = none) :
    d.edgePair false raw = none := by
  unfold Drive.edgePair
  rcases h with h | h <;> simp [h]

section IndexEdge

variable {ax : Axis} {raw : Int} {s u : State} (hu : u = s.readAxis ax raw) (rest : Int)
include hu

theorem exec_indexEdge_rising : exec (.indexEdge ax true raw rest) s = .next (if (u.drive ax).state = .indexing then
    u.onDrive ax fun d => { d with capture := some raw } else u).followLight := by
  rw [hu]
  rfl

theorem exec_indexEdge_ignored (h : (u.drive ax).edgePair false raw = none) :
    exec (.indexEdge ax false raw rest) s = .next u.followLight := by
  rw [hu] at h ⊢
  change execIndexEdge ax false raw rest s = _
  unfold execIndexEdge
  simp only [Bool.false_eq_true, if_false, h]
  rfl

theorem exec_indexEdge_pair {mid : Int} (h : (u.drive ax).edgePair false raw = some mid) :
    exec (.indexEdge ax false raw rest) s = .next ((u.readAxis ax rest).pairComplete ax mid).followLight := by
  rw [hu] at h ⊢
  change execIndexEdge ax false raw rest s = _
  unfold execIndexEdge
  simp only [Bool.false_eq_true, if_false, h]
  rfl

end IndexEdge

/-- The index set with the axis at rest (R110): SETTLING at the position that the midpoint gives (R107, R112). -/
theorem Drive.setIndex_position (ax : Axis) (mid : Int) (now first : Nat) (rest : Int) (d : Drive) {o : Int}
    (ho : d.offset = some o) : ((d.read ax first rest).setIndex ax mid now).position ax = some (match ax with
      | .hz => (rest - mid + o) % 4000000
      | .vt => rest - mid + o) :=
  Drive.position_read ax rest first { d with indexed := true, midpoint := some mid } rfl rfl ho

theorem Drive.setIndex_target (ax : Axis) (mid : Int) (now : Nat) (d : Drive) {p : Int}
    (h : (d.setIndex ax mid now).position ax = some p) : (d.setIndex ax mid now).target = some p := by
  change some (((d.setIndex ax mid now).position ax).getD 0) = some p
  rw [h]
  rfl

/-- Only VT has a hard limit (R119). -/
theorem Drive.beyondLimit_iff {ax : Axis} {d : Drive} {p : Int} (h : d.position ax = some p) :
    d.beyondLimit ax = true ↔ ax = .vt ∧ (p < 150000 ∨ 1850000 < p) := by
  unfold Drive.beyondLimit
  cases ax with
  | hz => simp
  | vt =>
    rw [h]
    simp [withinHardLimit]

/-- A completed edge pair with the engine STOPPED: SETTLING, or LIMIT where VT stands outside its hard limit (R110,
R119). -/
theorem State.pairComplete_stopped {ax : Axis} {mid : Int} {s : State} {e : Drive} (hs : s.engine.state = .stopped)
    (he : e = (s.drive ax).setIndex ax mid s.clock) :
    (e.beyondLimit ax = true → s.pairComplete ax mid = { s.setDrive ax { e with
        state := .fault, fault := some .limit, target := none, pendingTarget := none, returnState := none
        capture := none, travel := 0, settleEnd := none, interval := none, reporting := false, outside := true } with
      axesReadyRaised := false, link := s.link.faultRaised }) ∧
    (e.beyondLimit ax = false →
      s.pairComplete ax mid = { s.setDrive ax e with axesReadyRaised := false, link := s.link }) := by
  obtain ⟨v, hv⟩ : ∃ v : State, v = { s.onDrive ax (Drive.setIndex ax mid s.clock) with axesReadyRaised := false } :=
    ⟨_, rfl⟩
  have hdrive : v.drive ax = e := by rw [hv, he]; cases ax <;> rfl
  have hpair : s.pairComplete ax mid = if e.beyondLimit ax then v.limitFault ax else v := by
    rw [← hdrive, hv]
    rfl
  rw [hpair]
  refine ⟨fun h => ?_, fun h => ?_⟩
  · have hsettling : ((v.onDrive ax fun d => { d with outside := true }).drive ax).state ≠ .fault := by
      rw [State.onDrive_drive, hdrive, he]
      exact fun hf => by cases hf
    have hstopped : (v.onDrive ax fun d => { d with outside := true }).engine.state = .stopped := by
      rw [State.onDrive_engine, hv]
      simpa using hs
    rw [if_pos h, State.limitFault, State.faultDrive_stopped ax .limit hstopped hsettling, State.onDrive,
      Drive.takeFault_eq _ hsettling, State.onDrive_drive, hdrive, hv]
    cases ax <;> rfl
  · rw [if_neg (by rw [h]; decide), hv, he]
    cases ax <;> rfl

/-- A drive and the link written in the dark of a STOPPED engine, with nothing but readings before it. -/
theorem State.followLight_driveWritten {ax : Axis} {s v t : State} {e : Drive} {b : Bool} {l : CommandLink}
    (hs : s.engine.state = .stopped) (hoff : s.light.emitter = .off) (hv : v = { s with hz := v.hz, vt := v.vt })
    (hother : v.drive (otherAxis ax) = s.drive (otherAxis ax))
    (ht : t = { v.setDrive ax e with axesReadyRaised := b, link := l }) :
    t.followLight = t ∧ t.drive ax = e ∧ t.drive (otherAxis ax) = s.drive (otherAxis ax) ∧
      t = { s with hz := t.hz, vt := t.vt, axesReadyRaised := b, link := l } := by
  have hframe : t = { s with hz := t.hz, vt := t.vt, axesReadyRaised := b, link := l } := by
    rw [ht, hv]
    cases ax <;> rfl
  refine ⟨State.followLight_stopped (by rw [hframe]; exact hs) (by rw [hframe]; exact hoff), ?_, ?_, hframe⟩
  · rw [ht]
    cases ax <;> rfl
  · rw [← hother, ht]
    cases ax <;> rfl

/-- Settles O48: the edges by `exec_indexEdge_rising` and `exec_indexEdge_pair`, the pair by `pairComplete_stopped`. -/
theorem indexEdgeSetsIndex : Obligations.IndexEdgeSetsIndex := by
  intro ax raw rest s u hu
  refine ⟨fun hs => ?rising, fun hs rising => ?notIndexing, fun hc => ?uncaptured,
    fun c o hs hc ho hstopped hoff => ?pair⟩
  case rising =>
    rw [exec_indexEdge_rising hu, if_pos hs]
    rfl
  case notIndexing =>
    cases rising with
    | true => rw [exec_indexEdge_rising hu, if_neg hs]
    | false => exact exec_indexEdge_ignored hu rest (Drive.edgePair_none (.inl hs))
  case uncaptured => exact exec_indexEdge_ignored hu rest (Drive.edgePair_none (.inr hc))
  case pair =>
    rw [exec_indexEdge_pair hu rest (Drive.edgePair_complete hs hc)]
    generalize (c + raw) / 2 = mid
    obtain ⟨v, hv⟩ : ∃ v, v = u.readAxis ax rest := ⟨_, rfl⟩
    obtain ⟨e, he⟩ : ∃ e, e = (v.drive ax).setIndex ax mid v.clock := ⟨_, rfl⟩
    have hread : v.drive ax = (u.drive ax).read ax (u.firstTravel ax) rest := by
      rw [hv, State.readAxis, State.onDrive_drive]
    have hframe : v = { s with hz := v.hz, vt := v.vt } := by rw [hv, hu]; cases ax <;> rfl
    have hother : v.drive (otherAxis ax) = s.drive (otherAxis ax) := by rw [hv, hu]; cases ax <;> rfl
    have hclock : v.clock = s.clock := by rw [hframe]
    have hlink : v.link = s.link := by rw [hframe]
    -- The index set, with the axis at rest.
    have hposition := Drive.setIndex_position ax mid v.clock (u.firstTravel ax) rest (u.drive ax) ho
    rw [← hread, ← he] at hposition
    have htarget : e.target = e.position ax := by
      rw [hposition, he]
      exact Drive.setIndex_target ax mid v.clock (v.drive ax) (he ▸ hposition)
    have hlimit := Drive.beyondLimit_iff hposition
    obtain ⟨hfault, hsettle⟩ := State.pairComplete_stopped (by rw [hframe]; exact hstopped) he
    rw [← hv]
    by_cases hbeyond : e.beyondLimit ax = true
    · obtain ⟨hlit, hdrive, hkept, ht⟩ := State.followLight_driveWritten hstopped hoff hframe hother (hfault hbeyond)
      have hout := hlimit.mp hbeyond
      rw [hlit]
      refine ⟨_, rfl, ?_⟩
      rw [hdrive, hkept]
      refine ⟨by rw [he]; rfl, by rw [he]; rfl, rfl, by rw [ht], rfl, hposition, ?_, fun _ => ⟨rfl, rfl, ?_⟩,
        fun h => ?_⟩
      · rw [ht]
      · rw [ht, hlink]
        rfl
      · obtain ⟨rfl, hout⟩ := hout
        rcases h with h | h
        · cases h
        · exact absurd h (by dsimp only at hout; omega)
    · obtain ⟨hlit, hdrive, hkept, ht⟩ := State.followLight_driveWritten hstopped hoff hframe hother
        (hsettle (by simpa using hbeyond))
      rw [hlit]
      refine ⟨_, rfl, ?_⟩
      rw [hdrive, hkept]
      refine ⟨by rw [he]; rfl, by rw [he]; rfl, by rw [he]; rfl, by rw [ht], rfl, hposition, ?_, fun h => ?_, fun _ =>
        ⟨by rw [he]; rfl, by rw [he, hclock]; rfl, htarget, by rw [ht, hlink]⟩⟩
      · rw [ht]
      · obtain ⟨rfl, hout⟩ := h
        exact absurd (hlimit.mpr ⟨rfl, hout⟩) hbeyond

end Sys2Proof.Machine

namespace Sys2Proof.Machine

open Sys2Proof

/-! ### The four faults of a drive -/

theorem Drive.seekExhausted_iff {ax : Axis} {d : Drive} :
    d.seekExhausted ax = true ↔ d.state = .indexing ∧ seekTravel ax ≤ d.travel := by
  simp [Drive.seekExhausted]

/-- A progress interval is over after its 200 ms, in MOVING and INDEXING (R118). -/
theorem Drive.intervalOver_iff {now : Nat} {d : Drive} {iv : ProgressInterval} : d.intervalOver now = some iv ↔
    d.interval = some iv ∧ (d.state = .moving ∨ d.state = .indexing) ∧ iv.begun + 200 ≤ now := by
  unfold Drive.intervalOver
  cases d.interval with
  | none => simp
  | some jv =>
    dsimp only
    split
    · rename_i h
      simp only [Option.some.injEq]
      exact ⟨by rintro rfl; exact ⟨rfl, h⟩, fun h => h.1⟩
    · rename_i h
      rw [Option.some.injEq]
      exact ⟨fun h => (by cases h), by rintro ⟨rfl, hover⟩; exact absurd hover h⟩

section Reading

variable {ax : Axis} {raw : Int} {s u : State} (hu : u = s.readAxis ax raw)
include hu

theorem exec_seekTravelExhausted : exec (.seekTravelExhausted ax raw) s =
    .next (if (u.drive ax).seekExhausted ax then u.faultDrive ax .indexMissing else u).followLight := by
  rw [hu]
  rfl

theorem exec_progressIntervalEnd_early (h : (u.drive ax).intervalOver s.clock = none) :
    exec (.progressIntervalEnd ax raw) s = .next u.followLight := by
  rw [← s.readAxis_clock ax raw, ← hu] at h
  change execProgressIntervalEnd ax raw s = _
  unfold execProgressIntervalEnd
  dsimp only
  rw [← hu, h]
  rfl

theorem exec_progressIntervalEnd_over {iv : ProgressInterval} (h : (u.drive ax).intervalOver s.clock = some iv) :
    exec (.progressIntervalEnd ax raw) s = .next (if (u.drive ax).progress ax iv < 100 then u.faultDrive ax .stall
      else u.onDrive ax fun d => { d with interval := some ⟨s.clock, d.progressMeasure ax⟩ }).followLight := by
  have hclock : u.clock = s.clock := by rw [hu, State.readAxis_clock]
  rw [← hclock] at h ⊢
  change execProgressIntervalEnd ax raw s = _
  unfold execProgressIntervalEnd
  dsimp only
  rw [← hu, h]
  rfl

variable (hc : s.EngineConsistent)
include hc

/-- A fault of a drive that the reading finds outside FAULT (R120). -/
theorem State.faultDrive_read {code : FaultCode} (hd : (u.drive ax).state ≠ .fault) :
    State.FaultTaken ax code u (u.faultDrive ax code).followLight :=
  State.faultDrive_taken ax code (hu ▸ s.readAxis_kept ax raw hc) hd

/-- The end of a progress interval (R118): STALL below 100 cu, and else the next interval. -/
theorem exec_progressIntervalEnd_judged {iv : ProgressInterval} (hi : (u.drive ax).interval = some iv)
    (hs : (u.drive ax).state = .moving ∨ (u.drive ax).state = .indexing) (hle : iv.begun + 200 ≤ s.clock) :
    ((u.drive ax).progress ax iv < 100 →
      ∃ t, exec (.progressIntervalEnd ax raw) s = .next t ∧ State.FaultTaken ax .stall u t) ∧
    (100 ≤ (u.drive ax).progress ax iv → exec (.progressIntervalEnd ax raw) s = .next (u.setDrive ax
      { u.drive ax with interval := some ⟨s.clock, (u.drive ax).progressMeasure ax⟩ }).followLight) := by
  rw [exec_progressIntervalEnd_over hu (Drive.intervalOver_iff.mpr ⟨hi, hs, hle⟩)]
  refine ⟨fun h => ?_, fun h => ?_⟩
  · rw [if_pos h]
    exact ⟨_, rfl, State.faultDrive_read hu hc (by rcases hs with hs | hs <;> rw [hs] <;> decide)⟩
  · rw [if_neg (Int.not_lt.mpr h)]
    rfl

end Reading

theorem exec_bridgeFaultInput (ax : Axis) (asserted : Bool) (s : State) : exec (.bridgeFaultInput ax asserted) s =
    .next (if asserted then (s.setDrive ax { s.drive ax with bridgeFault := asserted }).faultDrive ax .overcurrent
      else s.setDrive ax { s.drive ax with bridgeFault := asserted }).followLight := rfl

section Limit

variable {raw : Int} {s u : State} (hu : u = s.readAxis .vt raw)
include hu

theorem exec_vtLimitCrossing : exec (.vtLimitCrossing raw) s =
    .next (if u.vt.beyondLimit .vt = true ∧ u.vt.outside = false then
      ({ u with vt := { u.vt with outside := true } } : State).faultDrive .vt .limit else u).followLight := by
  rw [hu]
  rfl

theorem exec_vtLimitCrossing_ignored (h : u.vt.beyondLimit .vt = false ∨ u.vt.outside = true) :
    exec (.vtLimitCrossing raw) s = .next u.followLight := by
  rw [exec_vtLimitCrossing hu, if_neg]
  rintro ⟨hbeyond, hout⟩
  rcases h with h | h
  · rw [hbeyond] at h; cases h
  · rw [hout] at h; cases h

end Limit

/-- Settles O49: a fault by `faultDrive_taken`, after the event's own test; in FAULT it is discarded. -/
theorem driveFaultsStopEngine : Obligations.DriveFaultsStopEngine := by
  intro ax raw s u hc hu
  refine ⟨fun hs ht => ?missing, fun h => ?seeking, fun iv hi hs hle => ?moving, fun iv hi hs hle => ?indexing,
    fun h => ?early, fun hd => ?overcurrent, fun hd => ?discarded, rfl, fun hax => ?limit⟩
  case missing =>
    rw [exec_seekTravelExhausted hu, if_pos (Drive.seekExhausted_iff.mpr ⟨hs, by cases ax <;> exact ht⟩)]
    exact ⟨_, rfl, State.faultDrive_read hu hc (by rw [hs]; decide)⟩
  case seeking =>
    rw [exec_seekTravelExhausted hu, if_neg]
    rw [Drive.seekExhausted_iff]
    rintro ⟨hs, ht⟩
    rcases h with h | h
    · exact h hs
    · cases ax <;> exact Nat.not_le.mpr h ht
  case moving =>
    obtain ⟨hstall, hnext⟩ := exec_progressIntervalEnd_judged hu hc hi (.inl hs) hle
    have hprogress : (u.drive ax).progress ax iv = (iv.mark : Int) - (u.drive ax).distanceLeft ax := by
      simp [Drive.progress, hs]
    have hmeasure : (u.drive ax).progressMeasure ax = (u.drive ax).distanceLeft ax := by
      simp [Drive.progressMeasure, hs]
    rw [hprogress] at hstall hnext
    rw [hmeasure] at hnext
    exact ⟨fun h => hstall (by omega), fun h => hnext (by omega)⟩
  case indexing =>
    obtain ⟨hstall, hnext⟩ := exec_progressIntervalEnd_judged hu hc hi (.inr hs) hle
    have hprogress : (u.drive ax).progress ax iv = ((u.drive ax).travel : Int) - iv.mark := by
      simp [Drive.progress, hs]
    have hmeasure : (u.drive ax).progressMeasure ax = (u.drive ax).travel := by simp [Drive.progressMeasure, hs]
    rw [hprogress] at hstall hnext
    rw [hmeasure] at hnext
    exact ⟨fun h => hstall (by omega), fun h => hnext (by omega)⟩
  case early =>
    refine exec_progressIntervalEnd_early hu (Option.eq_none_iff_forall_ne_some.mpr fun iv hover => ?_)
    obtain ⟨hi, hs, hle⟩ := Drive.intervalOver_iff.mp hover
    rcases h with h | ⟨h1, h2⟩ | ⟨jv, hj, hlt⟩
    · rw [h] at hi; cases hi
    · exact hs.elim h1 h2
    · rw [hi] at hj
      cases hj
      exact Nat.not_le.mpr hlt hle
  case overcurrent =>
    refine ⟨_, exec_bridgeFaultInput ax true s, State.faultDrive_taken ax .overcurrent ?_ ?_⟩
    · exact s.onDrive_kept ax (fun d => { d with bridgeFault := true }) hc
    · rwa [State.setDrive_drive]
  case discarded =>
    rw [exec_bridgeFaultInput, if_pos rfl, State.faultDrive, if_pos (by rwa [State.setDrive_drive])]
  case limit =>
    subst hax
    refine ⟨fun hp => ?_, fun p hp => ⟨fun hout => ⟨fun ho hs => ?_, fun ho hs => ?_, fun ho => ?_⟩, fun hlo hhi => ?_⟩⟩
    · exact exec_vtLimitCrossing_ignored hu (.inl (by simp [Drive.beyondLimit, hp]))
    · rw [exec_vtLimitCrossing hu, if_pos ⟨(Drive.beyondLimit_iff hp).mpr ⟨rfl, hout⟩, ho⟩]
      refine ⟨_, rfl, State.faultDrive_taken .vt .limit ?_ hs⟩
      exact State.onDrive_kept u .vt (fun d => { d with outside := true }) (hu ▸ s.readAxis_kept .vt raw hc)
    · rw [exec_vtLimitCrossing hu, if_pos ⟨(Drive.beyondLimit_iff hp).mpr ⟨rfl, hout⟩, ho⟩, State.faultDrive, if_pos]
      exact hs
    · exact exec_vtLimitCrossing_ignored hu (.inr ho)
    · refine exec_vtLimitCrossing_ignored hu (.inl ?_)
      rw [← Bool.not_eq_true, Drive.beyondLimit_iff hp]
      rintro ⟨-, hout⟩
      omega

end Sys2Proof.Machine

namespace Sys2Proof.Machine

open Sys2Proof

/-! ### ARRIVED reports -/

theorem Drive.arrives_iff {ax : Axis} {d : Drive} :
    d.arrives ax = true ↔ d.state = .moving ∧ d.distanceLeft ax ≤ 50 := by
  simp [Drive.arrives]

/-- The drive of an ARRIVED report, as the report leaves it (R114; by R113 at once, log entry 8). -/
def Drive.Reports (ax : Axis) (d e : Drive) : Prop :=
  d.state = .moving ∧ d.distanceLeft ax ≤ 50 ∧ e = { d with state := .ready, interval := none, reporting := false } ∨
    (d.state ≠ .moving ∨ 50 < d.distanceLeft ax) ∧ d.reporting = true ∧ e = { d with reporting := false }

theorem Drive.arrives_not {ax : Axis} {d : Drive} (h : d.state ≠ .moving ∨ 50 < d.distanceLeft ax) :
    ¬ d.arrives ax = true := by
  rw [Drive.arrives_iff]
  rintro ⟨hs, hd⟩
  rcases h with h | h
  · exact h hs
  · omega

section Arrived

variable {ax : Axis} {raw : Int} {s u : State}

theorem exec_arrived (hu : u = s.readAxis ax raw) : exec (.arrived ax raw) s = .next (u.arrivals ax).followLight := by
  rw [hu]
  rfl

theorem State.arrivals_none (h : (u.drive ax).state ≠ .moving ∨ 50 < (u.drive ax).distanceLeft ax)
    (hr : (u.drive ax).reporting = false) : u.arrivals ax = u := by
  rw [State.arrivals, if_neg (Drive.arrives_not h), if_neg (by rw [hr]; decide)]

theorem State.arrivals_taken {e : Drive} (h : (u.drive ax).Reports ax e) :
    u.arrivals ax = (u.setDrive ax e).takeArrived ax := by
  rcases h with ⟨hs, hd, rfl⟩ | ⟨hno, hr, rfl⟩
  · rw [State.arrivals, if_pos (Drive.arrives_iff.mpr ⟨hs, hd⟩)]
    rfl
  · rw [State.arrivals, if_neg (Drive.arrives_not hno), if_pos hr]
    rfl

end Arrived

/-- A move of both axes of an aim, as the drives take it (R113). -/
theorem State.moveAxes_moved (b : Aim) (s : State) (g : Angles) :
    (s.withAim b).moveAxes g = { s with
        engine := { s.engine with aim := some { b with awaitHz := true, awaitVt := true } }
        hz := ((s.withAim b).moveAxes g).hz
        vt := ((s.withAim b).moveAxes g).vt } ∧
      DriveMoved .hz s.clock (g.hz % 4000000) s.hz ((s.withAim b).moveAxes g).hz ∧
      DriveMoved .vt s.clock (max 200000 (min 1800000 g.v)) s.vt ((s.withAim b).moveAxes g).vt := by
  refine ⟨rfl, s.hz.move_moved .hz s.clock g.hz, ?_⟩
  rw [← targetInRange_vt]
  exact s.vt.move_moved .vt s.clock g.v

/-- Settles O45: the drive's part by `arrivals_taken`, the engine's by `takeArrived_eq` and `slewEnd_eq`. -/
theorem arrivalAdvancesEngine : Obligations.ArrivalAdvancesEngine := by
  intro ax raw s u w d e hu hd hw
  rw [exec_arrived hu]
  refine ⟨fun h hr => by rw [State.arrivals_none (hd ▸ h) (hd ▸ hr)], fun h => ?_⟩
  rw [State.arrivals_taken (u := u) (e := e) (by rw [← hd]; exact h), ← hw]
  obtain ⟨hz, vt, rfl⟩ : ∃ hz vt, w = { s with hz := hz, vt := vt } :=
    ⟨w.hz, w.vt, by rw [hw, hu]; cases ax <;> rfl⟩
  obtain ⟨hidle, hawaited⟩ := State.takeArrived_eq ax { s with hz := hz, vt := vt }
  refine ⟨fun hno => by rw [hidle hno], fun a mine other b hs ha hmine hb => ?_⟩
  rw [hawaited a mine other b hs ha hmine hb]
  refine ⟨fun hm => by rw [if_pos hm], ?_, ?_, ?_⟩
  all_goals rintro rfl rfl
  · rfl
  · intro hsearch
    rw [if_neg (by decide), if_neg (by decide), if_neg (by rw [hsearch]; decide)]
    rfl
  intro hslew
  rw [if_neg (by decide), if_neg (by decide), if_pos hslew]
  obtain ⟨hslot, hsource, hcentre, hreslews, hsector⟩ : b.slot = a.slot ∧ b.source = a.source ∧ b.centre = a.centre ∧
      b.reslews = a.reslews ∧ b.sector = a.sector := by
    rw [hb]
    cases ax <;> exact ⟨rfl, rfl, rfl, rfl, rfl⟩
  obtain ⟨hfresh, hlost⟩ := State.slewEnd_eq (s := { s with hz := hz, vt := vt }) b
  have hacquire := fun x => State.enterAcquiring_eq (s := { s with hz := hz, vt := vt }) x hslew
  rw [← hslot, ← hsource, ← hcentre, ← hreslews, ← hsector]
  refine ⟨fun r g hr hg => ⟨fun hfar hfew => ?reslew, fun hnear => ?acquire⟩, fun hno => ?acquireLost⟩
  case reslew =>
    rw [(hfresh r g hr hg).1 hfar hfew]
    exact ⟨_, rfl, State.moveAxes_moved _ { s with hz := hz, vt := vt } ⟨g.hz, g.v⟩⟩
  case acquire =>
    rw [(hfresh r g hr hg).2 hnear, hacquire]
    rfl
  case acquireLost =>
    rw [hlost hno, hacquire]
    rfl

end Sys2Proof.Machine

namespace Sys2Proof.Machine

open Sys2Proof

/-! ### CLEAR_FAULT at a drive -/

section ClearFault

variable (ax : Axis) (held : Bool) (now : Nat) (d : Drive)

theorem Drive.clearFault_idle {d : Drive} (h : d.state ≠ .fault) : d.clearFault ax held now = d := if_neg h

/-- A drive whose index holds settles, or is braked to settle later (R122). -/
theorem Drive.clearFault_settles {d : Drive} (h : d.state = .fault) (hi : d.indexed = true)
    (hf : d.fault ≠ some .indexMissing) :
    d.clearFault ax held now = if held then d.brake .settling else d.settle ax now := by
  rw [Drive.clearFault, if_pos h, if_pos ⟨hi, hf⟩]

/-- A drive with no index seeks it, or is braked to seek later (R122). -/
theorem Drive.clearFault_seeks {d : Drive} (h : d.state = .fault)
    (hi : d.indexed = false ∨ d.fault = some .indexMissing) : d.clearFault ax held now =
      if held then ({ d with indexed := false, midpoint := none, outside := false } : Drive).brake .indexing
      else ({ d with indexed := false, midpoint := none, outside := false } : Drive).seek now := by
  rw [Drive.clearFault, if_pos h, if_neg]
  rintro ⟨hindexed, hf⟩
  rcases hi with hi | hi
  · rw [hi] at hindexed; cases hindexed
  · exact hf hi

theorem Drive.clearFault_leaves : (d.clearFault ax held now).state ≠ .fault := by
  unfold Drive.clearFault
  split
  · split <;> split <;> exact fun h => by cases h
  · assumption

theorem Drive.clearFault_keeps : (d.clearFault ax held now).raw = d.raw ∧
    (d.clearFault ax held now).offset = d.offset ∧ (d.clearFault ax held now).bridgeFault = d.bridgeFault := by
  unfold Drive.clearFault
  split
  · split <;> split <;> exact ⟨rfl, rfl, rfl⟩
  · exact ⟨rfl, rfl, rfl⟩

/-- A drive in FAULT with its bridge fault input still asserted (R122). -/
def Drive.reasserts (d : Drive) : Bool := decide (d.state = .fault) && d.bridgeFault

theorem Drive.reasserts_iff {d : Drive} : d.reasserts = true ↔ d.state = .fault ∧ d.bridgeFault = true := by
  simp [Drive.reasserts]

/-- A drive after the whole of CLEAR_FAULT (R122). -/
def Drive.cleared (d : Drive) : Drive :=
  if d.reasserts then (d.clearFault ax held now).takeFault .overcurrent else d.clearFault ax held now

theorem Drive.cleared_reasserted {d : Drive} (h : d.reasserts = true) :
    d.cleared ax held now = (d.clearFault ax held now).takeFault .overcurrent := if_pos h

theorem Drive.cleared_released {d : Drive} (h : d.reasserts = false) :
    d.cleared ax held now = d.clearFault ax held now := if_neg (by rw [h]; decide)

theorem Drive.cleared_driveCleared : DriveCleared ax held now d (d.cleared ax held now) := by
  have hleaves := d.clearFault_leaves ax held now
  obtain ⟨hraw, hoffset, hbridge⟩ := d.clearFault_keeps ax held now
  refine ⟨fun hs => ?other, fun hs hb => ?asserted, fun hs hb hi hf => ?settles, fun hs hb hi => ?seeks, ?kept⟩
  case other =>
    rw [Drive.cleared_released _ _ _ (by simp [Drive.reasserts, hs]), Drive.clearFault_idle _ _ _ hs]
  case asserted =>
    rw [Drive.cleared_reasserted _ _ _ (Drive.reasserts_iff.mpr ⟨hs, hb⟩), Drive.takeFault_eq _ hleaves]
    exact ⟨rfl, rfl⟩
  case settles =>
    rw [Drive.cleared_released _ _ _ (by simp [Drive.reasserts, hb]), Drive.clearFault_settles _ _ _ hs hi hf]
    cases held with
    | false => exact ⟨rfl, hi, rfl, fun _ => ⟨rfl, rfl, rfl⟩, fun h => by cases h⟩
    | true => exact ⟨rfl, hi, rfl, fun h => (by cases h), fun _ => ⟨rfl, rfl⟩⟩
  case seeks =>
    rw [Drive.cleared_released _ _ _ (by simp [Drive.reasserts, hb]), Drive.clearFault_seeks _ _ _ hs hi]
    cases held with
    | false => exact ⟨rfl, rfl, rfl, fun _ => ⟨rfl, rfl, rfl, rfl⟩, fun h => by cases h⟩
    | true => exact ⟨rfl, rfl, rfl, fun h => (by cases h), fun _ => ⟨rfl, rfl⟩⟩
  case kept =>
    unfold Drive.cleared
    split
    · rw [Drive.takeFault_eq _ hleaves]
      exact ⟨hraw, hoffset, hbridge⟩
    · exact ⟨hraw, hoffset, hbridge⟩

end ClearFault

/-- AXIS_FAULT raised when a bridge fault input is found still asserted. -/
def CommandLink.faultRaisedIf (b : Bool) (l : CommandLink) : CommandLink :=
  { l with events := { l.events with axisFault := l.events.axisFault || b } }

theorem CommandLink.faultRaisedIf_true (l : CommandLink) : l.faultRaisedIf true = l.faultRaised := by
  rw [CommandLink.faultRaisedIf, Bool.or_true]
  rfl

theorem CommandLink.faultRaisedIf_false (l : CommandLink) : l.faultRaisedIf false = l := by
  rw [CommandLink.faultRaisedIf, Bool.or_false]

theorem CommandLink.faultRaisedIf_twice (b c : Bool) (l : CommandLink) :
    (l.faultRaisedIf b).faultRaisedIf c = l.faultRaisedIf (b || c) := by
  simp [CommandLink.faultRaisedIf, Bool.or_assoc]

/-- A drive that is not in FAULT has nothing to clear (R122). -/
theorem State.clearFaultOf_idle (ax : Axis) {s : State} (h : (s.drive ax).state ≠ .fault) : s.clearFaultOf ax = s := by
  unfold State.clearFaultOf
  dsimp only
  rw [if_neg fun hf => h hf.1, State.onDrive, Drive.clearFault_idle _ _ _ h]
  cases ax <;> rfl

/-- With the engine STOPPED, CLEAR_FAULT at a drive writes that drive, and the event of its fault (R122). -/
theorem State.clearFaultOf_stopped (ax : Axis) {s : State} (hs : s.engine.state = .stopped) : s.clearFaultOf ax =
    { s.setDrive ax ((s.drive ax).cleared ax s.held s.clock) with
      link := s.link.faultRaisedIf (s.drive ax).reasserts } := by
  unfold State.clearFaultOf
  dsimp only
  cases h : (s.drive ax).reasserts with
  | true =>
    have hleaves : ((s.onDrive ax (Drive.clearFault ax s.held s.clock)).drive ax).state ≠ .fault := by
      rw [State.onDrive_drive]
      exact Drive.clearFault_leaves ax s.held s.clock _
    rw [if_pos (Drive.reasserts_iff.mp h),
      State.faultDrive_stopped ax .overcurrent (by rwa [State.onDrive_engine]) hleaves, Drive.cleared_reasserted _ _ _ h,
      CommandLink.faultRaisedIf_true]
    cases ax <;> rfl
  | false =>
    rw [if_neg fun hb => absurd (Drive.reasserts_iff.mpr hb) (by rw [h]; decide), Drive.cleared_released _ _ _ h,
      CommandLink.faultRaisedIf_false]
    cases ax <;> rfl

/-! ### CLEAR_FAULT -/

theorem axesOfCode_none {x : Nat} (h : x = 0 ∨ 3 < x) : axesOfCode x = none := by
  unfold axesOfCode
  split
  · omega
  · omega
  · omega
  · rfl

theorem axesOfCode_some {x : Nat} (h1 : 1 ≤ x) (h3 : x ≤ 3) : axesOfCode x = some (decide (x ≠ 2), decide (x ≠ 1)) := by
  interval_cases x <;> rfl

theorem exec_clearFault_ready {s : State} (h : s.LinkReady) (x : Nat) : exec (.clearFault (some x)) s =
    .next ((clearFaultRule x s).state.respond 17 (clearFaultRule x s).answer).followLight :=
  congrArg lit (State.takeCommand_ready h .clearFault x clearFaultRule)

section Rule

variable {x : Nat} {hz vt : Bool} {s : State}

theorem clearFaultRule_idle (hx : axesOfCode x = some (hz, vt)) (hh : s.hz.state ≠ .fault) (hv : s.vt.state ≠ .fault) :
    clearFaultRule x s = ⟨.ok s.drivesPayload, s⟩ := by
  have hzIdle : s.clearFaultOf .hz = s := State.clearFaultOf_idle .hz hh
  have vtIdle : s.clearFaultOf .vt = s := State.clearFaultOf_idle .vt hv
  rw [clearFaultRule, hx]
  simp [hzIdle, vtIdle]

/-- The drives that CLEAR_FAULT names, cleared, and the event of a fault taken again. -/
theorem clearFaultRule_stopped (hx : axesOfCode x = some (hz, vt)) (hs : s.engine.state = .stopped) :
    (clearFaultRule x s).answer = .ok (clearFaultRule x s).state.drivesPayload ∧
      (clearFaultRule x s).state = { s with
        hz := if hz then s.hz.cleared .hz s.held s.clock else s.hz
        vt := if vt then s.vt.cleared .vt s.held s.clock else s.vt
        link := s.link.faultRaisedIf ((hz && s.hz.reasserts) || (vt && s.vt.reasserts)) } := by
  rw [clearFaultRule, hx]
  refine ⟨rfl, ?_⟩
  dsimp only
  cases hz with
  | false =>
    cases vt with
    | false => exact (congrArg (fun l => { s with link := l }) s.link.faultRaisedIf_false).symm
    | true => exact State.clearFaultOf_stopped .vt hs
  | true =>
    rw [if_pos rfl, State.clearFaultOf_stopped .hz hs]
    cases vt with
    | false =>
      rw [Bool.false_and, Bool.or_false]
      rfl
    | true =>
      rw [if_pos rfl, State.clearFaultOf_stopped .vt (by exact hs), Bool.true_and, Bool.true_and,
        ← CommandLink.faultRaisedIf_twice]
      rfl

end Rule

/-- Settles O42: the rule with the engine STOPPED by `clearFaultRule_stopped`, each drive by `cleared_driveCleared`. -/
theorem clearFaultRestoresDrives : Obligations.ClearFaultRestoresDrives := by
  intro x s hready hlight
  rw [exec_clearFault_ready hready]
  refine ⟨fun hx => ?badValue, fun h1 h3 hh hv => ?idle, fun h1 h3 hs => ?stopped⟩
  case badValue =>
    rw [clearFaultRule, axesOfCode_none hx]
    exact congrArg _ (State.followLight_respond hlight 17 (.refused .badValue))
  case idle =>
    rw [clearFaultRule_idle (axesOfCode_some h1 h3) hh hv, State.followLight_respond hlight]
    rfl
  case stopped =>
    obtain ⟨hanswer, hstate⟩ := clearFaultRule_stopped (axesOfCode_some h1 h3) hs
    have hoff : s.light.emitter = .off := State.emitter_off_of_unlit hlight (Engine.wantsLight_stopped hs)
    rw [hanswer, hstate, State.followLight_stopped (by exact hs) (by exact hoff)]
    refine ⟨_, rfl, rfl, fun h => ?_, fun h => ?_, fun h => ?_, fun h => ?_, ?_⟩
    · simpa [State.respond, h] using s.hz.cleared_driveCleared .hz s.held s.clock
    · simp [State.respond, h]
    · simpa [State.respond, h] using s.vt.cleared_driveCleared .vt s.held s.clock
    · simp [State.respond, h]
    · simp [State.respond, State.drivesPayload, CommandLink.faultRaisedIf, Drive.reasserts, Bool.or_assoc,
        Bool.and_assoc]

end Sys2Proof.Machine

namespace Sys2Proof.Machine

open Sys2Proof

/-! ### What keeps the emitter with its conditions (R128) -/

/-- The emitter is as R128 says in `t` where it is in `s`. -/
def State.LightKept (s t : State) : Prop := s.lightConsistent → t.lightConsistent

/-- The engine's state calls for no light, and the emitter is OFF (R128, first row). -/
structure State.Dark (s : State) : Prop where
  unwanted : s.engine.wantsLight = false
  off : s.light.emitter = .off

/-- What a selection leaves of the engine and the light: both as they were, or SLEWING in the dark (R68, R130). -/
def State.Selected (s t : State) : Prop :=
  t.engine = s.engine ∧ t.light = s.light ∨
    t.engine.state = .slewing ∧ t.light = { s.light with window := none, emitter := .off }

theorem State.LightKept.refl (s : State) : s.LightKept s := id

theorem State.LightKept.trans {s t u : State} (h : s.LightKept t) (h' : t.LightKept u) : s.LightKept u :=
  fun hs => h' (h hs)

/-- `trans` from its last step: the state before that step is read off the step. -/
theorem State.LightKept.after {s t u : State} (h' : t.LightKept u) (h : s.LightKept t) : s.LightKept u := h.trans h'

theorem State.LightKept.of_eq {s t : State} (h : t = s) : s.LightKept t := h ▸ .refl s

theorem State.LightKept.ite {s t u : State} {c : Prop} [Decidable c] (ht : c → s.LightKept t)
    (hu : ¬ c → s.LightKept u) : s.LightKept (if c then t else u) := by
  split
  · exact ht ‹_›
  · exact hu ‹_›

/-- Each condition of R128 stands as it did, and so does the emitter. -/
theorem State.LightKept.of_conditions {s t : State} (wanted : t.engine.wantsLight = s.engine.wantsLight)
    (held : t.held = s.held) (faultOut : t.faultOut = s.faultOut) (sky : t.skyOpen = s.skyOpen)
    (beam : t.light.beam = s.light.beam) (emitter : t.light.emitter = s.light.emitter) : s.LightKept t := by
  unfold State.LightKept State.lightConsistent State.lightAllowed
  rw [wanted, held, faultOut, sky, beam, emitter]
  exact id

/-- The OPEN sky at the current azimuth depends on the setup, the HZ position and the sectors (R128). -/
theorem State.skyOpen_congr {s t : State} (setup : t.setup = s.setup) (hz : t.hz = s.hz) (sectors : t.sectors = s.sectors) :
    t.skyOpen = s.skyOpen := by
  unfold State.skyOpen State.currentAzimuth State.sector
  rw [setup, hz, sectors]

/-- The call for light and the hold stand as they did, and so does all else that R128 looks at. -/
theorem State.LightKept.framed {s t : State} (wanted : t.engine.wantsLight = s.engine.wantsLight) (held : t.held = s.held)
    (h : t.light = s.light ∧ t.setup = s.setup ∧ t.hz = s.hz ∧ t.vt = s.vt ∧ t.sectors = s.sectors) : s.LightKept t := by
  obtain ⟨light, setup, hz, vt, sectors⟩ := h
  exact .of_conditions wanted held (by unfold State.faultOut; rw [hz, vt]) (State.skyOpen_congr setup hz sectors)
    (by rw [light]) (by rw [light])

/-- A change that leaves, by its form, all that R128 looks at. -/
theorem State.LightKept.beside {s t : State} (held : t.held = s.held := by rfl)
    (wanted : t.engine.wantsLight = s.engine.wantsLight := by rfl)
    (h : t.light = s.light ∧ t.setup = s.setup ∧ t.hz = s.hz ∧ t.vt = s.vt ∧ t.sectors = s.sectors := by
      exact ⟨rfl, rfl, rfl, rfl, rfl⟩) : s.LightKept t := .framed wanted held h

theorem State.Dark.consistent {s : State} (h : s.Dark) : s.lightConsistent := by
  obtain ⟨hunwanted, hoff⟩ := h
  simp [State.lightConsistent, State.lightAllowed, hunwanted, hoff, Emitter.isOn]

theorem State.Dark.of_consistent {s : State} (h : s.lightConsistent) (hw : s.engine.wantsLight = false) : s.Dark :=
  ⟨hw, State.emitter_off_of_unlit h hw⟩

theorem State.LightKept.of_dark {s t : State} (h : t.Dark) : s.LightKept t := fun _ => h.consistent

/-- The entry to a state that calls for no light turns the emitter OFF (R129). -/
theorem State.enter_dark {e : EngineState} (s : State)
    (h : ({ s.engine with state := e, dwelling := false } : Engine).wantsLight = false) : (s.enter e).Dark := by
  refine ⟨by rw [State.enter_engine, h], ?_⟩
  unfold State.enter
  dsimp only
  rw [if_neg (by rw [h]; decide)]

/-! ### A selection in the dark -/

theorem State.Selected.refl (s : State) : s.Selected s := .inl ⟨rfl, rfl⟩

/-- A selection made after a change beside the engine and the light. -/
theorem State.Selected.after {s t u : State} (h : t.Selected u) (engine : t.engine = s.engine := by rfl)
    (light : t.light = s.light := by rfl) : s.Selected u := by
  unfold State.Selected at h ⊢
  rwa [engine, light] at h

theorem State.Selected.dark {s t : State} (h : s.Selected t) (hs : s.Dark) : t.Dark := by
  obtain ⟨hunwanted, hoff⟩ := hs
  rcases h with ⟨he, hl⟩ | ⟨he, hl⟩
  · exact ⟨by rw [he, hunwanted], by rw [hl, hoff]⟩
  · exact ⟨by simp [Engine.wantsLight, he], by rw [hl]⟩

variable (s : State)

theorem State.handOver_selected (slot : Nat) (r : TargetRecord) (d : Direction) : s.Selected (s.handOver slot r d) := by
  refine .inr ⟨?_, ?_⟩
  · simp [State.handOver, State.moveAxes_eq]
  · simp [State.handOver, State.enter_slewing]

theorem State.ordinaryPass_selected : s.Selected s.ordinaryPass := by
  unfold State.ordinaryPass
  dsimp only
  split
  · exact .after (State.handOver_selected _ _ _ _)
  · exact .inl ⟨rfl, rfl⟩

theorem State.dropForced_selected : s.Selected s.dropForced.ordinaryPass := .after (State.ordinaryPass_selected _)

theorem State.forcedIdle_selected (i : Nat) (r : TargetRecord) : s.Selected (s.forcedIdle i r) := by
  unfold State.forcedIdle
  split
  · exact .after (State.handOver_selected _ i r _)
  · exact s.dropForced_selected

theorem State.selection_selected : s.Selected s.selection := by
  unfold State.selection
  split
  · exact s.ordinaryPass_selected
  · split
    · exact s.dropForced_selected
    · rename_i i _
      split
      · exact s.dropForced_selected
      · split
        · exact s.ordinaryPass_selected
        · split
          · exact .after (State.forcedIdle_selected (s.setRecord i _) i _)
          · exact s.ordinaryPass_selected
        · exact s.forcedIdle_selected i _

theorem State.select_selected : s.Selected s.select := by
  rcases s.select_cases with ⟨-, -, he⟩ | he <;> rw [he]
  · exact s.selection_selected
  · exact .refl s

/-- A selection finds the engine in WAITING, where it is dark, or does nothing (R57). -/
theorem State.select_lightKept : s.LightKept s.select := by
  rcases s.select_cases with ⟨hw, -, -⟩ | he
  · exact fun hs => (s.select_selected.dark (.of_consistent hs (by simp [Engine.wantsLight, hw]))).consistent
  · exact .of_eq he

theorem State.enterWaiting_dark : s.enterWaiting.Dark := (State.select_selected _).dark (s.enter_dark rfl)

/-! ### Updates that leave the conditions -/

theorem State.respond_lightKept (code : Nat) (a : Answer) : s.LightKept (s.respond code a) := .beside

theorem State.setRecord_lightKept (i : Nat) (r : Option TargetRecord) : s.LightKept (s.setRecord i r) := .beside

/-- The aim context is no condition of R128. -/
theorem State.onAim_lightKept (f : Aim → Aim) : s.LightKept (s.onAim f) := .beside

@[simp] theorem State.dropOpen_held : s.dropOpen.held = s.held := rfl

@[simp] theorem State.onAim_held (f : Aim → Aim) : (s.onAim f).held = s.held := rfl

@[simp] theorem State.giveObservation_held (o : Observation) : (s.giveObservation o).held = s.held :=
  State.held_congr (by simp) (by simp)

/-- An offered frame leaves the receiver, and so the hold, as they are (R152, R169). -/
@[simp] theorem State.offerFrame_held (f : Frame) : (s.offerFrame f).held = s.held := by
  refine State.held_congr (by simp) ?_
  rw [State.offerFrame_offered]
  unfold SiteLine.offered
  split <;> rfl

@[simp] theorem State.offerOwnFix_held (prism : Nat) (f : Fix) : (s.offerOwnFix prism f).held = s.held := by
  unfold State.offerOwnFix
  repeat' split
  case isTrue => exact State.offerFrame_held _ _
  all_goals rfl

@[simp] theorem State.offerClosedFix_held (o : OpenObs) (c : Closing) (g : Option Grid) :
    (s.offerClosedFix o c g).held = s.held := by
  cases g with
  | none => rfl
  | some g => exact s.offerOwnFix_held o.prism _

@[simp] theorem State.closeObservation_held (range : Option Nat) (offers : Bool) :
    (s.closeObservation range offers).held = s.held := by
  unfold State.closeObservation
  dsimp only
  repeat' split
  all_goals simp

/-- A closing changes no condition of R128: the engine's state and the light stand (R93). -/
theorem State.closeObservation_lightKept : s.LightKept (s.closeObservation none true) :=
  .framed (by rw [State.closeObservation_none_engine]; rfl) (by simp) (by simp)

theorem State.openObservation_lightKept (kind : ObsKind) (x : Angles) : s.LightKept (s.openObservation kind x) := by
  unfold State.openObservation
  split
  · exact .refl s
  · exact .beside

theorem State.offerFrame_lightKept (f : Frame) : s.LightKept (s.offerFrame f) := .framed (by simp) (by simp) (by simp)

theorem State.requestBreak_lightKept : s.LightKept s.requestBreak :=
  .framed (by simp) (State.held_congr (by simp) s.requestBreak_frame.2) (by simp)

theorem State.offerPresence_lightKept : s.LightKept s.offerPresence := (s.offerFrame_lightKept _).trans .beside

/-! ### The line -/

/-- The idle count is no condition of R128. -/
theorem State.atMarkFrom_lightKept (t : Nat) : s.LightKept (s.atMarkFrom t) := by
  rw [State.atMarkFrom_eq]
  exact .beside

theorem State.endCharacter_lightKept (c : LineChar) : s.LightKept (s.endCharacter c) := by
  cases c with
  | framingError => exact .ite (fun _ => .refl s) fun _ => (s.atMarkFrom_lightKept _).trans .beside
  | marked v => exact s.atMarkFrom_lightKept _
  | unmarked v => exact s.atMarkFrom_lightKept _

theorem State.receive_lightKept (c : LineChar) : s.LightKept (s.receive c) := by
  refine .beside ?_
  unfold State.held
  rw [State.receive_peers, decide_eq_decide.mpr (s.receive_break_iff c)]

theorem State.takeEcho_lightKept (out : Sending) (c : LineChar) : s.LightKept (s.takeEcho out c) :=
  .ite
    (fun _ => .ite (fun _ => .after (State.atMarkFrom_lightKept _ _) .beside)
      fun _ => .after (State.atMarkFrom_lightKept _ _) .beside)
    fun _ => (s.endCharacter_lightKept c).trans .beside

theorem State.lineCharacter_lightKept (c : LineChar) : s.LightKept (s.lineCharacter c) := by
  unfold State.lineCharacter
  split
  · exact s.takeEcho_lightKept _ c
  · exact (s.endCharacter_lightKept c).trans (State.receive_lightKept _ c)

theorem State.beginSend_lightKept : s.LightKept s.beginSend := by
  unfold State.beginSend
  split <;> exact .beside

theorem State.releaseBreak_lightKept : s.LightKept s.releaseBreak := .framed (by simp) (by simp) (by simp)

/-! ### The rules of the host commands that are answered without the emitter following -/

theorem State.takeCommand_lightKept {α : Type} {c : CommandCode} {args : Option α} {rule : α → State → Taken}
    (h : ∀ a, s.LightKept (rule a s).state) : s.LightKept (s.takeCommand c args rule) := by
  rcases s.takeCommand_cases c args rule with ⟨-, he⟩ | ⟨-, -, he⟩ | ⟨-, -, -, -, he⟩ | ⟨a, -, -, -, he⟩ <;> rw [he]
  · exact s.respond_lightKept _ _
  · exact s.respond_lightKept _ _
  · exact s.respond_lightKept _ _
  · exact (h a).trans (State.respond_lightKept _ _ _)

theorem loadTargetRule_lightKept (a : LoadArgs) : s.LightKept (loadTargetRule a s).state := by
  unfold loadTargetRule
  split
  · exact .refl s
  · split
    · exact .refl s
    · split
      · exact .refl s
      · split
        · exact .refl s
        · exact (s.setRecord_lightKept _ _).trans (State.select_lightKept _)

theorem editTargetRule_lightKept (a : EditArgs) : s.LightKept (editTargetRule a s).state := by
  unfold editTargetRule
  split
  · exact .refl s
  · split
    · exact .refl s
    · exact (s.setRecord_lightKept _ _).trans (State.select_lightKept _)

theorem runRule_lightKept (u : Unit) : s.LightKept (runRule u s).state := by
  unfold runRule
  split
  · split
    · exact .of_dark s.enterWaiting_dark
    · exact .refl s
  · exact .refl s

theorem aimNowRule_lightKept (prism : Nat) : s.LightKept (aimNowRule prism s).state := by
  unfold aimNowRule
  split
  · exact .refl s
  · split
    · exact .refl s
    · split
      · exact .refl s
      · split
        · exact .refl s
        · exact .after (State.select_lightKept _) .beside

/-- Either reset leaves the engine STOPPED and the emitter OFF (R104, R141). -/
theorem State.dark_of_reset {t : State} (engine : t.engine = Engine.reset) (off : t.light.emitter = .off) : t.Dark :=
  ⟨by rw [engine]; rfl, off⟩

theorem execPowerOnReset_lightKept (holdIn : Bool) {t : State} (h : execPowerOnReset holdIn s = .next t) :
    s.LightKept t := by
  cases h
  cases holdIn <;> exact .of_dark (State.dark_of_reset rfl rfl)

theorem execResponseRead_lightKept (count : Nat) {t : State} (h : execResponseRead count s = .next t) :
    s.LightKept t := by
  cases h
  split
  · exact .refl s
  · exact .ite (fun _ => .refl s) fun _ => .beside

end Sys2Proof.Machine

namespace Sys2Proof.Machine

open Sys2Proof
open Host (Outcome)

variable (s : State)

/-! ### The events that are taken without the emitter following -/

/-- Where the outcome is a next state, the emitter is as R128 says in it. -/
def State.LightKeptNext (s : State) (o : Outcome State Fault Refusal) : Prop := ∀ t, o = .next t → s.LightKept t

variable {s}

theorem State.LightKept.next {t : State} (h : s.LightKept t) : s.LightKeptNext (.next t) := by
  rintro u ⟨⟩
  exact h

variable (s)

/-- Where the emitter follows, it is as R128 says, whatever came before (R129). -/
theorem State.lit_lightKept (t : State) : s.LightKeptNext (lit t) :=
  State.LightKept.next fun _ => t.followLight_consistent

theorem execDueTimeExpiry_lightKept (i : Nat) : s.LightKeptNext (execDueTimeExpiry i s) := by
  refine .next ?_
  split
  · exact .refl s
  · exact .ite (fun _ => (s.setRecord_lightKept _ _).trans (State.select_lightKept _)) fun _ => .refl s

theorem execDeferUntilExpiry_lightKept (i : Nat) : s.LightKeptNext (execDeferUntilExpiry i s) := by
  refine .next ?_
  split
  · exact .refl s
  · exact .ite (fun _ => (s.setRecord_lightKept _ _).trans (State.select_lightKept _)) fun _ => .refl s

/-- A sample goes on in TRACKING with the light as it is (R91). -/
theorem State.takeSample_lightKept : s.LightKept s.takeSample := by
  have hnext := s.onAim_lightKept fun a => { a with nextSample := a.nextSample.map (· + 100) }
  unfold State.takeSample
  dsimp only
  split
  · exact hnext
  · split
    · exact hnext.trans <| (State.closeObservation_lightKept _).trans <|
        (State.openObservation_lightKept _ _ _).trans (State.onAim_lightKept _ _)
    · exact hnext

/-- Block counts change no sector's mode (R54). -/
theorem State.skyOpen_blocks (f : Sector → Nat) :
    ({ s with sectors := s.sectors.map fun e => { e with block := f e } } : State).skyOpen = s.skyOpen := by
  have hmode : ∀ i, (({ s with sectors := s.sectors.map fun e => { e with block := f e } } : State).sector i).mode =
      (s.sector i).mode := by
    intro i
    unfold State.sector
    rw [List.getD_eq_getElem?_getD, List.getD_eq_getElem?_getD, List.getElem?_map]
    cases s.sectors[i]? <;> rfl
  unfold State.skyOpen
  simp only [hmode]
  rfl

theorem execBlockDecay_lightKept : s.LightKeptNext (execBlockDecay s) :=
  .next (.ite (fun _ => .of_conditions rfl rfl rfl (s.skyOpen_blocks _) rfl rfl) fun _ => .refl s)

/-! ### Every command -/

/-- Every command keeps the emitter as R128 says: where it can change a condition the emitter follows (`lit`), or it is dark
before and after; elsewhere the conditions stand. -/
theorem exec_lightKept (c : Instr) : s.LightKeptNext (exec c s) :=
  match c with
  | .powerOnReset holdIn => fun _ => execPowerOnReset_lightKept s holdIn
  | .configure _ | .setStation _ | .retireTarget _ | .setSector _ | .pause _ | .range _ | .clearFault _ | .arrived _ _
  | .fineArrival _ _ | .windowEnd _ _ | .trackDwellExpiry | .rangingWaitExpiry | .abandonDeadlineExpiry | .settleEnd _ _
  | .indexEdge _ _ _ _ | .vtSeekReversal _ | .seekTravelExhausted _ _ | .progressIntervalEnd _ _ | .bridgeFaultInput _ _
  | .vtLimitCrossing _ | .hzSectorCrossing _ | .frameEnd | .breakBegin | .breakEnd | .holdInRising | .holdInFalling
  | .holdDeadlineExpiry => s.lit_lightKept _
  | .loadTarget _ => .next (s.takeCommand_lightKept (loadTargetRule_lightKept s))
  | .editTarget _ => .next (s.takeCommand_lightKept (editTargetRule_lightKept s))
  | .readTarget _ => .next (s.takeCommand_lightKept fun k => .of_eq (readTargetRule_state s k))
  | .readSector _ => .next (s.takeCommand_lightKept fun a => .of_eq (readSectorRule_state s a))
  | .run _ => .next (s.takeCommand_lightKept (runRule_lightKept s))
  | .aimNow _ => .next (s.takeCommand_lightKept (aimNowRule_lightKept s))
  | .takeObservation _ => .next (s.takeCommand_lightKept fun u => .of_eq (takeObservationRule_state s u))
  | .readStatus _ => .next (s.takeCommand_lightKept fun _ => .refl s)
  | .readPeers _ => .next (s.takeCommand_lightKept fun _ => .refl s)
  | .ackEvents _ => .next (s.takeCommand_lightKept fun _ => .beside)
  | .siteHold _ => .next (s.takeCommand_lightKept fun _ => s.requestBreak_lightKept)
  | .reset _ => .next (s.takeCommand_lightKept fun _ => .of_dark (State.dark_of_reset rfl rfl))
  | .unknownCommand _ => .next (s.respond_lightKept _ _)
  | .responseRead count => fun _ => execResponseRead_lightKept s count
  | .dueTimeExpiry i => execDueTimeExpiry_lightKept s i
  | .deferUntilExpiry i => execDeferUntilExpiry_lightKept s i
  | .trackSample => .next (.ite (fun _ => s.takeSample_lightKept) fun _ => .refl s)
  | .blockDecay => execBlockDecay_lightKept s
  | .returnPulse _ | .identityCode _ _ => .next (.of_conditions rfl rfl rfl rfl rfl rfl)
  | .receiveCharacter char | .echoCharacter char => .next (s.lineCharacter_lightKept char)
  | .accessGapExpiry => .next (.ite (fun _ => s.beginSend_lightKept) fun _ => .refl s)
  | .echoTimeout => .next (.ite (fun _ => .beside) fun _ => .refl s)
  | .breakRelease => .next (.ite (fun _ => s.releaseBreak_lightKept) fun _ => .refl s)
  | .peerRecordExpiry _ | .intentExpiry _ => .next .beside
  | .presenceDeadline => .next (.ite (fun _ => s.offerPresence_lightKept) fun _ => .refl s)
  | .repeatDeadlineExpiry => .next (.ite (fun _ => .after (State.requestBreak_lightKept _) .beside) fun _ => .refl s)
  | .startBit => .next (.ite (fun _ => .refl s) fun _ => .beside)

/-! ### The step -/

/-- Time is no condition of R128. -/
theorem State.idle_lightKept : s.LightKept s.idle := by
  unfold State.idle
  split <;> exact .beside

theorem step_lightKept : s.LightKeptNext (step s) := by
  unfold step
  split
  · exact s.idle_lightKept.next
  · rename_i c rest _
    exact fun t ht => .after (exec_lightKept { s with pending := rest } c t ht) .beside

/-- Settles O4: a step follows R128 with the emitter wherever it can change a condition in the light. -/
theorem stepKeepsLightConsistent : Obligations.StepKeepsLightConsistent := fun s t hs hstep => step_lightKept s t hstep hs

end Sys2Proof.Machine

namespace Sys2Proof.Machine

open Sys2Proof

/-! ### The class, the offsets and the code of a window (R136, R137, R139) -/

section Classify

variable {n own foreign : Nat}

theorem classify_empty (hn : n = 0) : classify n own foreign = .empty := if_pos hn

theorem classify_own (hn : 0 < n) (ho : 5 ≤ own) (hf : foreign ≤ 1) : classify n own foreign = .own := by
  rw [classify, if_neg hn.ne', if_pos ⟨ho, hf⟩]

theorem classify_foreign (hn : 0 < n) (hf : 5 ≤ foreign) (ho : own ≤ 1) : classify n own foreign = .foreign := by
  rw [classify, if_neg hn.ne', if_neg (by omega), if_pos ⟨hf, ho⟩]

theorem classify_mixed (hn : 0 < n) (ho : 2 ≤ own) (hf : 2 ≤ foreign) : classify n own foreign = .mixed := by
  rw [classify, if_neg hn.ne', if_neg (by omega), if_neg (by omega), if_pos ⟨ho, hf⟩]

theorem classify_weak (hn : 0 < n) (h1 : ¬ (5 ≤ own ∧ foreign ≤ 1)) (h2 : ¬ (5 ≤ foreign ∧ own ≤ 1))
    (h3 : ¬ (2 ≤ own ∧ 2 ≤ foreign)) : classify n own foreign = .weak := by
  rw [classify, if_neg hn.ne', if_neg h1, if_neg h2, if_neg h3]

end Classify

/-- A spot offset is held within ±2,000 (R137). -/
theorem spotOffset_bounds (offsets : List Int) : -2000 ≤ spotOffset offsets ∧ spotOffset offsets ≤ 2000 := by
  unfold spotOffset
  split
  · decide
  · rw [clampInt_eq _ _ _ (by decide)]
    omega

section Report

variable (own : Nat) (pulses : List Pulse) (codes : List CodeSeen) (h v : Int) (now : Nat)

/-- The offsets are present exactly in OWN and MIXED windows (R137). -/
theorem windowReport_offsets_isSome : (windowReport own pulses codes h v now).offsets.isSome = true ↔
    (windowReport own pulses codes h v now).cls = .own ∨ (windowReport own pulses codes h v now).cls = .mixed := by
  dsimp only [windowReport]
  split <;> simp [*]

theorem windowReport_offsets_bounds {dx dy : Int} (ho : (windowReport own pulses codes h v now).offsets = some (dx, dy)) :
    -2000 ≤ dx ∧ dx ≤ 2000 ∧ -2000 ≤ dy ∧ dy ≤ 2000 := by
  dsimp only [windowReport] at ho
  split at ho
  · obtain ⟨rfl, rfl⟩ := Prod.mk.inj (Option.some.inj ho)
    exact ⟨(spotOffset_bounds _).1, (spotOffset_bounds _).2, (spotOffset_bounds _).1, (spotOffset_bounds _).2⟩
  · cases ho

/-- A code is kept in OWN windows only (R139). -/
theorem windowReport_code_own (hc : (windowReport own pulses codes h v now).code.isSome = true) :
    (windowReport own pulses codes h v now).cls = .own := by
  dsimp only [windowReport] at hc ⊢
  split at hc
  · assumption
  · cases hc

end Report

/-! ### The record of the last window, which the engine's work leaves -/

variable (s : State)

@[simp] theorem State.enter_last (e : EngineState) : (s.enter e).light.last = s.light.last := by
  unfold State.enter State.beginWindow State.dropWindow
  dsimp only
  repeat' split
  all_goals rfl

@[simp] theorem State.followLight_last : s.followLight.light.last = s.light.last := by rw [State.followLight_frame]

@[simp] theorem State.select_last : s.select.light.last = s.light.last := by
  rcases s.select_selected with ⟨-, hl⟩ | ⟨-, hl⟩ <;> rw [hl]

@[simp] theorem State.endAim_last (o : AimOutcome) (defer : Option Nat) : (s.endAim o defer).light.last = s.light.last := by
  simp [State.endAim, State.enterWaiting]

@[simp] theorem State.endAttempt_last (lost : Bool) : (s.endAttempt lost).light.last = s.light.last := by
  unfold State.endAttempt
  repeat' split
  all_goals simp

@[simp] theorem State.searchAt_last (index : Nat) : (s.searchAt index).light.last = s.light.last := by
  unfold State.searchAt
  split <;> simp

@[simp] theorem State.countWindow_last : s.countWindow.light.last = s.light.last := by
  unfold State.countWindow
  dsimp only
  repeat' split
  all_goals simp

@[simp] theorem State.wrongPrism_last (w : WindowReport) : (s.wrongPrism w).light.last = s.light.last := by
  unfold State.wrongPrism
  split <;> simp

@[simp] theorem State.lock_last (x : Angles) : (s.lock x).light.last = s.light.last := by
  unfold State.lock
  dsimp only
  repeat' split
  all_goals simp

@[simp] theorem State.centringOwn_last (w : WindowReport) : (s.centringOwn w).light.last = s.light.last := by
  unfold State.centringOwn
  dsimp only
  repeat' split
  all_goals simp

@[simp] theorem State.searchWindow_last (a : Aim) (w : WindowReport) :
    (s.searchWindow a w).light.last = s.light.last := by
  unfold State.searchWindow
  repeat' split
  all_goals simp

@[simp] theorem State.centringWindow_last (a : Aim) (w : WindowReport) :
    (s.centringWindow a w).light.last = s.light.last := by
  unfold State.centringWindow
  dsimp only
  repeat' split
  all_goals simp

@[simp] theorem State.trackingWindow_last (a : Aim) (w : WindowReport) :
    (s.trackingWindow a w).light.last = s.light.last := by
  unfold State.trackingWindow
  dsimp only
  repeat' split
  all_goals simp

/-- Whatever the engine makes of a report, the record of it stays (R140). -/
@[simp] theorem State.takeWindow_last (w : WindowReport) : (s.takeWindow w).light.last = s.light.last := by
  unfold State.takeWindow
  repeat' split
  all_goals simp

theorem State.takeWindow_idle {s : State} (h : s.engine.aim = none) (w : WindowReport) : s.takeWindow w = s := by
  unfold State.takeWindow
  rw [h]

/-! ### What a window gathers (R133, R139) -/

theorem State.onWindow_some {s : State} {w : Window} (h : s.light.window = some w) (f : Window → Window) :
    s.onWindow f = { s with light := { s.light with window := some (f w) } } := by
  rw [State.onWindow, h]
  rfl

theorem State.onWindow_none {s : State} (h : s.light.window = none) (f : Window → Window) : s.onWindow f = s := by
  rw [State.onWindow, h, Option.map_none, ← h]

/-! ### The end of a window (R131, R138) -/

section WindowEnd

variable {s u : State} {w : Window} {x y : Int}

theorem State.windowOver_read (hu : u = s.readBoth x y) (hw : s.light.window = some w) :
    u.windowOver = decide (w.start + 108288 ≤ s.instant) := by
  subst hu
  unfold State.windowOver
  rw [show (s.readBoth x y).light.window = some w from hw]
  rfl

theorem exec_windowEnd (hu : u = s.readBoth x y) (hw : s.light.window = some w) : exec (.windowEnd x y) s =
    .next (if w.start + 108288 ≤ s.instant then u.endWindow w else u).followLight := by
  have hover := State.windowOver_read hu hw
  subst hu
  change execWindowEnd x y s = _
  unfold execWindowEnd
  unfold State.readBoth at *
  dsimp only
  rw [show ((s.readAxis .hz x).readAxis .vt y).light.window = some w from hw]
  simp [hover, lit]

theorem State.endWindow_unplaced (h : u.hz.position .hz = none ∨ u.vt.position .vt = none) :
    u.endWindow w = { u with light := { u.light with window := some (nextWindow w) } } := by
  unfold State.endWindow
  split
  · simp_all
  · rfl

end WindowEnd

/-- Settles O50: a window ends by `exec_windowEnd_over`, its class is one of the five of `classify`, and what the engine
makes of the report is `takeWindow_taken`, which leaves the report stored (`takeWindow_last`). -/
theorem windowEndReports : Obligations.WindowEndReports := by
  intro s
  refine ⟨fun w p c i hw => ⟨?_, ?_⟩, fun hw p c i => ⟨?_, ?_⟩, fun x y w u hu hw =>
    ⟨fun hearly => ?early, fun hover hno => ?unplaced, fun h v hover hh hv => ?ended⟩⟩
  · exact congrArg _ (State.onWindow_some hw _)
  · exact congrArg _ (State.onWindow_some hw _)
  · exact congrArg _ (State.onWindow_none hw _)
  · exact congrArg _ (State.onWindow_none hw _)
  case early => rw [exec_windowEnd hu hw, if_neg (Nat.not_le.mpr hearly)]
  case unplaced =>
    rw [exec_windowEnd hu hw, if_pos hover, State.endWindow_unplaced hno]
    refine ⟨_, rfl, ?_, ?_, ?_⟩
    · rw [State.followLight_last, hu]; rfl
    · rw [State.followLight_engine, hu]; rfl
    · rw [State.followLight_table, hu]; rfl
  case ended =>
    subst hu
    refine ⟨_, _, exec_windowEnd_over rfl hw hover hh hv rfl, ?last, ?clock, rfl, rfl, rfl, rfl, Nat.min_le_left _ _,
      Nat.min_le_left _ _, ?empty, classify_own, classify_foreign, classify_mixed, classify_weak,
      windowReport_offsets_isSome _ _ _ _ _ _, fun _ _ => windowReport_offsets_bounds _ _ _ _ _ _,
      windowReport_code_own _ _ _ _ _ _, rfl, _, _, rfl, rfl, fun hno => State.takeWindow_idle (by exact hno) _,
      fun a r ha hr _ => State.takeWindow_taken _ ha hr rfl⟩
    case last => rw [State.followLight_last, State.takeWindow_last]
    case clock => rw [State.followLight_clock, State.takeWindow_clock]; rfl
    case empty => exact classify_empty

end Sys2Proof.Machine

namespace Sys2Proof.Machine

open Sys2Proof

/-! ### Values in bytes (R192) -/

theorem natOf_cons (b : Byte) (bs : List Byte) : natOf (b :: bs) = b.toNat * 256 ^ bs.length + natOf bs := by
  have hacc : ∀ (acc : Nat) (l : List Byte),
      l.foldl (fun acc b => acc * 256 + b.toNat) acc = acc * 256 ^ l.length + natOf l := by
    intro acc l
    induction l generalizing acc with
    | nil => simp [natOf]
    | cons c cs ih =>
      have hhead : natOf (c :: cs) = c.toNat * 256 ^ cs.length + natOf cs := by
        rw [natOf, List.foldl_cons, ih, Nat.zero_mul, Nat.zero_add]
      rw [hhead, List.foldl_cons, ih, List.length_cons]
      ring
  rw [natOf, List.foldl_cons, hacc, Nat.zero_mul, Nat.zero_add]

@[simp] theorem bytesOf_length (k v : Nat) : (bytesOf k v).length = k := by
  induction k with
  | zero => rfl
  | succ k ih => rw [bytesOf, List.length_cons, ih]

theorem natOf_bytesOf (k v : Nat) : natOf (bytesOf k v) = v % 256 ^ k := by
  induction k with
  | zero => simp [bytesOf, natOf, Nat.mod_one]
  | succ k ih =>
    rw [bytesOf, natOf_cons, ih, bytesOf_length, BitVec.toNat_ofNat, Nat.pow_succ (m := k),
      Nat.mod_mul (a := 256 ^ k) (b := 256)]
    ring

theorem natOf_byte (v : Nat) : natOf [Byte.ofNat v] = v % 256 := by
  simp [natOf]

theorem intOf_signedBytes {v : Int} (h : -2147483648 ≤ v ∧ v < 2147483648) : intOf (signedBytes 4 v) = v := by
  unfold intOf signedBytes
  rw [natOf_bytesOf, bytesOf_length]
  norm_num
  omega

/-- A position in range is read back from its 12 bytes. -/
theorem gridAt_gridBytes {g : Grid} {chars : List Byte} {i : Nat} (h : gridInRange g = true)
    (he : slice chars i 4 = signedBytes 4 g.e) (hn : slice chars (i + 4) 4 = signedBytes 4 g.n)
    (hh : slice chars (i + 8) 4 = signedBytes 4 g.h) : gridAt chars i = g := by
  obtain ⟨e, n, h⟩ := (gridInRange_iff g).mp h
  rw [gridAt, he, hn, hh, intOf_signedBytes (by omega), intOf_signedBytes (by omega), intOf_signedBytes (by omega)]

/-! ### The check (R148) -/

theorem checkOf_lt (chars : List Byte) : (checkOf chars).1 < 251 ∧ (checkOf chars).2 < 251 := by
  unfold checkOf
  induction chars using List.reverseRecOn with
  | nil => decide
  | append_singleton cs c _ =>
    rw [List.foldl_concat]
    exact ⟨Nat.mod_lt _ (by decide), Nat.mod_lt _ (by decide)⟩

theorem checkAgrees_withCheck (chars : List Byte) : checkAgrees (withCheck chars) = true := by
  obtain ⟨h1, h2⟩ := checkOf_lt chars
  simp [checkAgrees, withCheck, Nat.mod_eq_of_lt (show (checkOf chars).1 < 256 by omega),
    Nat.mod_eq_of_lt (show (checkOf chars).2 < 256 by omega)]

/-! ### A frame on the line (R143, R147, R194) -/

theorem frameKind_lt (f : Frame) : frameKind f < 16 := by
  cases f <;> simp [frameKind]

section FrameChars

variable {cfg other : StationConfig} {now : Nat} {f : Frame}

theorem groupOf_firstChar (hg : cfg.group ≤ 15) : groupOf (firstChar cfg.group (frameKind f)) = cfg.group := by
  have hk := frameKind_lt f
  rw [groupOf, firstChar, BitVec.toNat_ofNat]
  omega

theorem kindOf_firstChar : kindOf (firstChar cfg.group (frameKind f)) = frameKind f := by
  have hk := frameKind_lt f
  rw [kindOf, firstChar, BitVec.toNat_ofNat]
  omega

theorem frameChars_length : lengthOfKind (frameKind f) = some (frameChars cfg now f).length := by
  cases f <;> rfl

/-- A sent frame passes every test of another station of its group (R147), by what its fields come to. -/
theorem validate_frameChars {r : Received} (hs : 1 ≤ cfg.station ∧ cfg.station ≤ 15) (hg : cfg.group ≤ 15)
    (hgroup : other.group = cfg.group) (hstation : other.station ≠ cfg.station)
    (hr : fieldsOf (frameChars cfg now f) = some r) : validate other (frameChars cfg now f) = .valid cfg.station r := by
  have hfirst : (frameChars cfg now f).headD 0 = firstChar cfg.group (frameKind f) := rfl
  have hsender : natOf (slice (frameChars cfg now f) 1 1) = cfg.station := by
    rw [show slice (frameChars cfg now f) 1 1 = [Byte.ofNat cfg.station] from rfl, natOf_byte]
    omega
  have hagrees : checkAgrees (frameChars cfg now f) = true := checkAgrees_withCheck _
  unfold validate
  dsimp only
  rw [hfirst, hsender, groupOf_firstChar hg, kindOf_firstChar, frameChars_length (cfg := cfg) (now := now), hagrees,
    if_neg (by rw [hgroup]; exact not_not.mpr rfl), if_neg (not_not.mpr rfl), if_neg (by decide), if_neg hstation.symm,
    if_neg (by omega), hr]

theorem fieldsOf_presence {run : RunState} {pos : Option Grid}
    (hpos : ∀ g, pos = some g → gridInRange g = true) :
    fieldsOf (frameChars cfg now (.presence run pos)) = some (.presence run pos) := by
  have hkind : kindOf ((frameChars cfg now (.presence run pos)).headD 0) = 1 := kindOf_firstChar
  have hgrid : gridInRange (pos.getD ⟨0, 0, 0⟩) = true := by
    cases pos with
    | none => decide
    | some g => exact hpos g rfl
  have hat : gridAt (frameChars cfg now (.presence run pos)) 3 = pos.getD ⟨0, 0, 0⟩ :=
    gridAt_gridBytes hgrid rfl rfl rfl
  have hid : natOf (slice (frameChars cfg now (.presence run pos)) 2 1) =
      runStateCode run + if pos.isSome then 128 else 0 := by
    refine (natOf_byte _).trans (Nat.mod_eq_of_lt ?_)
    cases run <;> cases pos <;> simp [runStateCode]
  unfold fieldsOf
  rw [hkind, hat, hid]
  refine (if_pos hgrid).trans ?_
  cases run <;> cases pos <;> simp [runStateCode, runStateOfCode]

theorem fieldsOf_sighting {prism fixTime quality : Nat} {pos : Grid}
    (hprism : 1 ≤ prism ∧ prism ≤ 250) (hpos : gridInRange pos = true) (hquality : quality ≤ 15) :
    fieldsOf (frameChars cfg now (.sighting prism pos fixTime quality)) =
      some (.sighting prism pos quality (min (now - fixTime) 65535)) := by
  have hkind : kindOf ((frameChars cfg now (.sighting prism pos fixTime quality)).headD 0) = 2 := kindOf_firstChar
  have hat : gridAt (frameChars cfg now (.sighting prism pos fixTime quality)) 3 = pos :=
    gridAt_gridBytes hpos rfl rfl rfl
  have hid : natOf (slice (frameChars cfg now (.sighting prism pos fixTime quality)) 2 1) = prism :=
    (natOf_byte _).trans (by omega)
  have hage : natOf (slice (frameChars cfg now (.sighting prism pos fixTime quality)) 15 2) =
      min (now - fixTime) 65535 :=
    (natOf_bytesOf 2 _).trans (by unfold sentAge; omega)
  have hq : natOf (slice (frameChars cfg now (.sighting prism pos fixTime quality)) 17 1) = quality :=
    (natOf_byte _).trans (by omega)
  unfold fieldsOf
  rw [hkind, hat, hid, hage, hq]
  exact if_pos ⟨hprism.1, hprism.2, hpos, hquality⟩

theorem fieldsOf_intent {prism distance hold : Nat} (hprism : 1 ≤ prism ∧ prism ≤ 250)
    (hdistance : 2000 ≤ distance ∧ distance ≤ 1500000) (hhold : hold ≤ 65535) :
    fieldsOf (frameChars cfg now (.intent prism distance hold)) = some (.intent prism distance hold) := by
  have hkind : kindOf ((frameChars cfg now (.intent prism distance hold)).headD 0) = 3 := kindOf_firstChar
  have hid : natOf (slice (frameChars cfg now (.intent prism distance hold)) 2 1) = prism :=
    (natOf_byte _).trans (by omega)
  have hd : natOf (slice (frameChars cfg now (.intent prism distance hold)) 3 3) = distance :=
    (natOf_bytesOf 3 _).trans (by omega)
  have hh : natOf (slice (frameChars cfg now (.intent prism distance hold)) 6 2) = hold :=
    (natOf_bytesOf 2 _).trans (by omega)
  unfold fieldsOf
  rw [hkind, hid, hd, hh]
  exact if_pos ⟨hprism.1, hprism.2, hdistance.1, hdistance.2⟩

end FrameChars

/-- Settles O60: the tests that all kinds share are `validate_frameChars`, the fields of each kind are read back by
`fieldsOf_presence`, `fieldsOf_sighting` and `fieldsOf_intent`. -/
theorem frameRoundTrip : Obligations.FrameRoundTrip := by
  intro cfg other now f h1 h15 hg hgroup hstation hf
  refine validate_frameChars ⟨h1, h15⟩ hg hgroup hstation ?_
  cases f with
  | presence run pos => exact fieldsOf_presence hf
  | sighting prism pos fixTime quality =>
    obtain ⟨hlow, hhigh, hpos, hquality⟩ := hf
    exact fieldsOf_sighting ⟨hlow, hhigh⟩ hpos hquality
  | intent prism distance hold =>
    obtain ⟨hlow, hhigh, hnear, hfar, hhold⟩ := hf
    exact fieldsOf_intent ⟨hlow, hhigh⟩ ⟨hnear, hfar⟩ hhold

end Sys2Proof.Machine

namespace Sys2Proof.Machine

open Sys2Proof

/-! ### Sources of the site hold (R149, R169, R171) -/

/-- An event answered with a state whose emitter stands already as R128 says. -/
theorem lit_eq {s : State} (h : s.lightConsistent) : lit s = .next s := congrArg _ (s.followLight_eq h)

/-- A line without the part's own break that begins a break of 48 bit times (R157). -/
def SiteLine.breakRequested (now : Nat) (l : SiteLine) : SiteLine :=
  { l with transmitter := .sendingBreak (now + 30000), idleFrom := none }

theorem State.requestBreak_line (s : State) :
    (∀ w, s.line.transmitter = .sendingBreak w → s.requestBreak.line = s.line) ∧
      ((∀ w, s.line.transmitter ≠ .sendingBreak w) → s.requestBreak.line = s.line.breakRequested s.instant) := by
  unfold State.requestBreak
  split
  · exact ⟨fun _ _ => rfl, fun hno => absurd ‹_› (hno _)⟩
  · exact ⟨fun w hw => absurd hw (by simp_all), fun _ => rfl⟩

/-- A source that comes under a hold already in force signals nothing (R169). -/
theorem State.withHold_further {s : State} {change : State → State} (hs : s.held = true) (hc : (change s).held = true) :
    s.withHold change = change s := by
  simp [State.withHold, State.signalHold, hs, hc]

/-- The first source signals the start of the hold (R169, R173). -/
theorem State.withHold_first {s : State} {change : State → State} (hs : s.held = false) (hc : (change s).held = true) :
    s.withHold change = (change s).holdBegins := by
  simp [State.withHold, State.signalHold, hs, hc]

section Source

variable {s : State} (hl : s.lightConsistent)
include hl

/-- Beside the line and the peers a change leaves the emitter as R128 has it, while the hold stands as it did. -/
theorem State.lightConsistent_beside {l : SiteLine} {p : PeerExchange}
    (hh : ({ s with line := l, peers := p } : State).held = s.held) :
    ({ s with line := l, peers := p } : State).lightConsistent :=
  (.beside hh : s.LightKept _) hl

theorem exec_breakBegin_standing (hr : s.line.receiver = .break) : exec .breakBegin s = .next s := by
  exact Eq.trans (congrArg lit (if_pos hr)) (lit_eq hl)

theorem exec_breakBegin_further (hr : s.line.receiver ≠ .break) (hs : s.held = true) :
    exec .breakBegin s = .next s.breakSeen := by
  have hheld : s.breakSeen.held = true := by simp [State.held, State.breakSeen]
  refine Eq.trans (congrArg lit ((if_neg hr).trans (State.withHold_further hs hheld))) (lit_eq ?_)
  exact State.lightConsistent_beside hl (hheld.trans hs.symm)

omit hl in
theorem exec_breakBegin_first (hc : s.EngineConsistent) (hr : s.line.receiver ≠ .break) (hs : s.held = false) :
    ∃ t, exec .breakBegin s = .next t ∧ State.HoldStarted s t ∧ t.line = s.breakSeen.line ∧ t.peers = s.peers := by
  have hheld : s.breakSeen.held = true := by simp [State.held, State.breakSeen]
  obtain ⟨hline, hpeers, -, -⟩ := s.breakSeen.holdBegins_line
  refine ⟨s.breakSeen.holdBegins.followLight,
    congrArg lit ((if_neg hr).trans (State.withHold_first hs hheld)), ?_, ?_, ?_⟩
  · have hstart := State.holdBegins_started (s := s) (v := s.breakSeen) s.breakSeen.line rfl hheld rfl hc
    rwa [← hline] at hstart
  · rw [State.followLight_line, hline]
  · rw [State.followLight_peers, hpeers]; rfl

/-- A rising edge of HOLD_IN (R171): the level, its repeat deadline and a break request; the hold starts unless it
stands. -/
theorem exec_holdInRising_edge (hc : s.EngineConsistent) (hin : s.peers.holdIn = false) :
    ∃ t, exec .holdInRising s = .next t ∧ (s.held = false → State.HoldStarted s t) ∧
      (s.held = true → t = { s with line := t.line, peers := t.peers }) ∧
      t.peers = { s.peers with holdIn := true, repeatDeadline := some (s.clock + 1000) } ∧
      t.line = s.requestBreak.line := by
  obtain ⟨v, hv⟩ : ∃ v, v = { s with
    peers := { s.peers with holdIn := true, repeatDeadline := some (s.clock + 1000) } } := ⟨_, rfl⟩
  have hheld : v.held = true := by rw [hv]; simp [State.held]
  have hexec : exec .holdInRising s = lit (v.signalHold s.held).requestBreak := by
    rw [hv]
    refine congrArg lit ((if_neg ?_).trans rfl)
    rw [hin]
    decide
  have hrequest : ∀ u : State, u.line = s.line → u.clock = s.clock → u.fine = s.fine →
      u.requestBreak.line = s.requestBreak.line := by
    intro u hline hclock hfine
    unfold State.requestBreak State.instant
    rw [hline, hclock, hfine]
    split <;> simp_all
  cases hs : s.held with
  | true =>
    have hsignal : v.signalHold s.held = v := by simp [State.signalHold, hs, hheld]
    have hframe := v.requestBreak_frame.1
    have hlight : v.requestBreak.lightConsistent := v.requestBreak_lightKept
      (by rw [hv] at hheld ⊢; exact State.lightConsistent_beside hl (hheld.trans hs.symm))
    refine ⟨v.requestBreak, by rw [hexec, hsignal, lit_eq hlight], fun h => absurd h (by decide), fun _ => ?_, ?_, ?_⟩
    · rw [hframe, hv]
    · rw [hframe, hv]
    · rw [hv]; exact hrequest _ rfl rfl rfl
  | false =>
    have hsignal : v.signalHold s.held = v.holdBegins := by simp [State.signalHold, hs, hheld]
    obtain ⟨hline, hpeers, hclock, hfine⟩ := v.holdBegins_line
    obtain ⟨hframe, hreceiver⟩ := v.holdBegins.requestBreak_frame
    have hstart := State.holdBegins_started (s := s) (v := v) v.holdBegins.requestBreak.line (by rw [hv]) hheld
      (by rw [hreceiver, hline]) hc
    rw [← hframe] at hstart
    refine ⟨v.holdBegins.requestBreak.followLight, by rw [hexec, hsignal]; rfl, fun _ => hstart,
      fun h => absurd h (by decide), ?_, ?_⟩
    · rw [State.followLight_peers, State.requestBreak_peers, hpeers, hv]
    · rw [State.followLight_line]
      exact hrequest _ (by rw [hline, hv]) (by rw [hclock, hv]) (by rw [hfine, hv])

theorem exec_breakEnd_over (hr : s.line.receiver = .break) (hn : s.holdsSpace = false) :
    exec .breakEnd s = .next s.breakOver := by
  have hs : s.held = true := by simp [State.held, hr]
  refine Eq.trans (congrArg lit ((if_pos ⟨hr, hn⟩).trans (s.withHold_breakOver hr))) (lit_eq ?_)
  exact State.lightConsistent_beside hl (s.breakOver_held.trans hs.symm)

theorem exec_breakEnd_ignored (h : s.line.receiver ≠ .break ∨ s.holdsSpace = true) : exec .breakEnd s = .next s := by
  refine Eq.trans (congrArg lit (if_neg ?_)) (lit_eq hl)
  rintro ⟨hr, hn⟩
  rcases h with h | h
  · exact h hr
  · rw [hn] at h; cases h

end Source

/-- The end of a break, by what the part itself has on the line (R149, R154). -/
theorem State.breakOver_line (s : State) :
    ((∀ out, s.line.transmitter ≠ .sending out) →
      s.breakOver.line = { s.line with receiver := .idle, idleFrom := some s.instant }) ∧
    (∀ out, s.line.transmitter = .sending out → s.breakOver.line =
      { s.line with receiver := .idle, idleFrom := some (max s.instant (out.begun + out.chars.length * 6875)) }) := by
  unfold State.breakOver
  dsimp only
  split
  · exact ⟨fun hno => absurd ‹_› (hno _), fun out h => by simp_all [Sending.over, finePerChar, finePerBit]⟩
  · exact ⟨fun _ => rfl, fun out h => absurd h (by simp_all)⟩

/-- The part's own break holds the line at space up to its release (R157). -/
theorem State.holdsSpace_eq_false_iff (s : State) :
    s.holdsSpace = false ↔ ∀ w, s.line.transmitter = .sendingBreak w → w ≤ s.instant := by
  unfold State.holdsSpace
  split <;> simp_all

/-- The repeat deadline has come with HOLD_IN asserted (R171): a further break request, and the deadline 1,000 ms on. -/
theorem exec_repeatDeadlineExpiry_over {s : State} {n : Nat} (hin : s.peers.holdIn = true)
    (hd : s.peers.repeatDeadline = some n) (hn : n ≤ s.clock) : exec .repeatDeadlineExpiry s = .next { s with
      line := s.requestBreak.line, peers := { s.peers with repeatDeadline := some (n + 1000) } } := by
  have hover : s.repeatOver = true := by simp [State.repeatOver, expired, hin, hd, hn]
  refine congrArg _ ((if_pos hover).trans ?_)
  unfold State.requestBreak
  rw [hd]
  dsimp only
  split <;> rfl

theorem exec_repeatDeadlineExpiry_early {s : State}
    (h : s.peers.holdIn = false ∨ ∀ n, s.peers.repeatDeadline = some n → s.clock < n) :
    exec .repeatDeadlineExpiry s = .next s := by
  refine congrArg _ (if_neg ?_)
  unfold State.repeatOver expired
  rcases h with h | h
  · simp [h]
  · cases hd : s.peers.repeatDeadline with
    | none => simp
    | some n => simp [Nat.not_le.mpr (h n hd)]

/-- Settles O57: each source by its lemma `exec_breakBegin_…`, `exec_holdInRising_edge` and
`exec_repeatDeadlineExpiry_over`; the start of the hold is `State.holdBegins_started`. -/
theorem holdStartsAtSources : Obligations.HoldStartsAtSources := by
  intro s hl hc
  obtain ⟨hbreaking, hfree⟩ := s.requestBreak_line
  refine ⟨exec_breakBegin_standing hl, exec_breakBegin_further hl, exec_breakBegin_first hc, fun hin => ?asserted,
    fun hin => ?rising, fun n hin hd hn => ?repeats, exec_repeatDeadlineExpiry_early, fun hr => ⟨fun hw hno => ?ended,
    fun out hout => ?sending, fun w hw hlt => ?holding⟩, fun hr => exec_breakEnd_ignored hl (.inl hr)⟩
  case asserted => exact Eq.trans (congrArg lit (if_pos hin)) (lit_eq hl)
  case rising =>
    obtain ⟨t, hexec, hstart, hkept, hpeers, hline⟩ := exec_holdInRising_edge hl hc hin
    exact ⟨t, hexec, hstart, hkept, hpeers, fun w hw => hline.trans (hbreaking w hw),
      fun hno => hline.trans (hfree hno)⟩
  case repeats => exact ⟨_, exec_repeatDeadlineExpiry_over hin hd hn, rfl, rfl, hbreaking, hfree⟩
  case ended =>
    rw [exec_breakEnd_over hl hr (s.holdsSpace_eq_false_iff.mpr hw), ← s.breakOver_line.1 hno]
    rfl
  case sending =>
    have hspace : s.holdsSpace = false := s.holdsSpace_eq_false_iff.mpr fun w hw => by rw [hout] at hw; cases hw
    rw [exec_breakEnd_over hl hr hspace, ← s.breakOver_line.2 out hout]
    rfl
  case holding =>
    refine exec_breakEnd_ignored hl (.inr (Bool.not_eq_false _ ▸ fun hn => ?_))
    exact absurd (s.holdsSpace_eq_false_iff.mp hn w hw) (by omega)

end Sys2Proof.Machine

namespace Sys2Proof.Machine

open Sys2Proof

/-! ### A character complete on the line (R142, R154) -/

section Character

variable {s : State}

theorem exec_character {i : Instr} {c : LineChar} (hi : i = .receiveCharacter c ∨ i = .echoCharacter c) :
    exec i s = .next (s.lineCharacter c) := by
  rcases hi with rfl | rfl <;> rfl

/-- While no frame of the part's own is being sent a character is the receiver's (R150). -/
theorem State.lineCharacter_received (hn : ∀ out, s.line.transmitter ≠ .sending out) (c : LineChar) :
    s.lineCharacter c = (s.endCharacter c).receive c := by
  unfold State.lineCharacter
  split
  · exact absurd ‹_› (hn _)
  · rfl

theorem State.markFrom_break (hr : s.line.receiver = .break) (t : Nat) : s.markFrom t = s.line.idleFrom := by
  unfold State.markFrom
  split
  · rfl
  · rw [if_pos hr]

theorem State.endCharacter_value {c : LineChar} (hc : c ≠ .framingError) :
    s.endCharacter c = { s with line := { s.line with idleFrom := s.markFrom s.instant } } := by
  cases c with
  | framingError => exact absurd rfl hc
  | marked v => exact s.atMarkFrom_eq _
  | unmarked v => exact s.atMarkFrom_eq _

theorem State.endCharacter_error (hr : s.line.receiver ≠ .break) : s.endCharacter .framingError = { s with
    choices := s.choices + 1, line := { s.line with idleFrom := s.markFrom (s.instant + s.spaceLeft) } } := by
  unfold State.endCharacter
  rw [if_neg hr, State.atMarkFrom_eq]
  rfl

theorem State.endCharacter_break (hr : s.line.receiver = .break) (c : LineChar) : s.endCharacter c = s := by
  cases c with
  | framingError => exact if_pos hr
  | marked v | unmarked v =>
    rw [State.endCharacter_value (by simp), State.markFrom_break hr]

/-- The space after a framing error is shorter than a break (R142, R149). -/
theorem State.spaceLeft_lt (s : State) : s.spaceLeft < 15000 := Nat.mod_lt _ (by decide)

theorem exec_startBit_free (h : s.takesLine = false) :
    exec .startBit s = .next { s with line := { s.line with idleFrom := none } } :=
  congrArg _ (if_neg (by rw [h]; decide))

theorem State.takesLine_not_sending (hn : ∀ out, s.line.transmitter ≠ .sending out) : s.takesLine = false := by
  unfold State.takesLine
  split
  · exact absurd ‹_› (hn _)
  · rfl

end Character

/-! ### The receiver (R144, R145, R149) -/

/-- The known kinds are 1, 2 and 3 (R143). -/
theorem lengthOfKind_isSome (k : Nat) : (lengthOfKind k).isSome = true ↔ 1 ≤ k ∧ k ≤ 3 := by
  rcases k with _ | _ | _ | _ | k <;> simp [lengthOfKind]

section Receive

variable {s : State} {v : Byte}

/-- The first characters that start a frame: of the own group and a known kind (R143, R144). -/
theorem State.startsFrame_iff {cfg : StationConfig} (hc : s.config = some cfg) : s.startsFrame v = true ↔
    v.toNat / 16 = cfg.group ∧ 1 ≤ v.toNat % 16 ∧ v.toNat % 16 ≤ 3 := by
  unfold State.startsFrame
  rw [hc]
  dsimp only
  rw [Bool.and_eq_true, decide_eq_true_iff, lengthOfKind_isSome]
  rfl

theorem State.receive_break (hr : s.line.receiver = .break) (c : LineChar) : s.receive c = s := by
  unfold State.receive
  rw [hr]

theorem State.receive_marked (hr : s.line.receiver ≠ .break) :
    s.receive (.marked v) = { s with line := s.line.takeMarked (s.startsFrame v) v } := by
  unfold State.receive
  cases h : s.line.receiver
  case idle | receiving | muted => rfl
  exact absurd h hr

theorem State.receive_unmarked (hr : s.line.receiver = .receiving) : s.receive (.unmarked v) = { s with line :=
    if s.line.assembler.length < 24 then { s.line with assembler := s.line.assembler ++ [v] }
    else { s.line with receiver := .muted, assembler := [] } } := by
  unfold State.receive
  rw [hr]

theorem State.receive_error (hr : s.line.receiver = .receiving) :
    s.receive .framingError = { s with line := { s.line with receiver := .muted, assembler := [] } } := by
  unfold State.receive
  rw [hr]

/-- Outside RECEIVING only a marked character is taken (R144). -/
theorem State.receive_ignored {c : LineChar} (hr : s.line.receiver ≠ .receiving) (hc : ∀ v, c ≠ .marked v) :
    s.receive c = s := by
  unfold State.receive
  cases c with
  | marked v => exact absurd rfl (hc v)
  | unmarked v | framingError => cases h : s.line.receiver <;> first | exact absurd h hr | rfl

end Receive

/-- Settles O54: the character leaves the line at mark by `State.endCharacter_value` or `State.endCharacter_error`, and
is then taken by the receiver as the `State.receive_…` lemmas say. -/
theorem charactersAssembleFrames : Obligations.CharactersAssembleFrames := by
  intro i c s cfg hi hcfg hn
  rw [exec_character hi, State.lineCharacter_received hn]
  refine ⟨fun hr => ?standing, fun hr => ⟨?starts, ?mutes, ?joins, ?overlong, ?outside, ?error⟩,
    exec_startBit_free (State.takesLine_not_sending hn)⟩
  case standing => rw [State.endCharacter_break hr, State.receive_break hr]
  case starts =>
    rintro v rfl hgroup hlow hhigh
    rw [State.endCharacter_value (by simp), State.receive_marked (by exact hr),
      (State.startsFrame_iff (by exact hcfg)).mpr ⟨hgroup, hlow, hhigh⟩]
    rfl
  case mutes =>
    rintro v rfl hother
    have hno : s.startsFrame v = false := Bool.eq_false_iff.mpr fun h => by
      obtain ⟨hgroup, hlow, hhigh⟩ := (State.startsFrame_iff hcfg).mp h
      omega
    rw [State.endCharacter_value (by simp), State.receive_marked (by exact hr)]
    change Host.Outcome.next ({ s with line := SiteLine.takeMarked (s.startsFrame v) v _ } : State) = _
    rw [hno]
    rfl
  case joins =>
    rintro v rfl hrec hroom
    rw [State.endCharacter_value (by simp), State.receive_unmarked (by exact hrec)]
    exact congrArg (fun l => Host.Outcome.next { s with line := l }) (if_pos hroom)
  case overlong =>
    rintro ⟨v, rfl⟩ hfull hrec
    rw [State.endCharacter_value (by simp), State.receive_unmarked (by exact hrec)]
    exact congrArg (fun l => Host.Outcome.next { s with line := l }) (if_neg (Nat.not_lt.mpr hfull))
  case outside =>
    rintro ⟨v, rfl⟩ hrec
    rw [State.endCharacter_value (by simp), State.receive_ignored (by exact hrec) (by simp)]
  case error =>
    rintro rfl
    rw [State.endCharacter_error hr]
    exact ⟨s.spaceLeft_lt, fun hrec => by rw [State.receive_error (by exact hrec)],
      fun hrec => by rw [State.receive_ignored (by exact hrec) (by simp)]⟩

end Sys2Proof.Machine

namespace Sys2Proof.Machine

open Sys2Proof

/-! ### The access gap and the start of sending (R154, R155) -/

section Sending

variable {s : State} {out : Sending} {v : Byte}

theorem exec_accessGapExpiry_not_waiting (h : s.line.transmitter ≠ .waitingGap) : exec .accessGapExpiry s = .next s :=
  congrArg _ (if_neg (by simp [State.gapOver, h]))

theorem State.gapOver_waiting {cfg : StationConfig} {t0 : Nat} (hc : s.config = some cfg)
    (ht : s.line.transmitter = .waitingGap) (hi : s.line.idleFrom = some t0) : s.gapOver =
      decide ((3 + cfg.station + if s.line.collision then 20 else 0) * 6875 ≤ s.instant - t0) := by
  simp [State.gapOver, State.idleTime, accessGap, finePerChar, finePerBit, hc, ht, hi]

theorem State.beginSend_head {cfg : StationConfig} {f : Frame} {rest : List Frame} (hc : s.config = some cfg)
    (hq : s.line.queue = f :: rest) : s.beginSend = { s with line := { s.line with
      queue := rest, transmitter := .sending ⟨frameChars cfg s.clock f, 0, s.instant⟩
      idleFrom := some (s.instant + (frameChars cfg s.clock f).length * 6875), collision := false } } := by
  unfold State.beginSend
  rw [hc, hq]
  rfl

/-! ### Echoes (R150, R156) -/

/-- The character whose echo is awaited, as it was sent: the first one marked (R142, R156). -/
def Sending.awaited (out : Sending) (v : Byte) : LineChar := if out.echoed = 0 then .marked v else .unmarked v

theorem echoEqual_iff (hv : out.chars[out.echoed]? = some v) (c : LineChar) :
    echoEqual out c = true ↔ c = out.awaited v := by
  unfold echoEqual Sending.awaited
  rw [hv]
  cases c <;> by_cases h0 : out.echoed = 0 <;> simp [h0, eq_comm]

theorem State.lineCharacter_sending (ht : s.line.transmitter = .sending out) (c : LineChar) :
    s.lineCharacter c = s.takeEcho out c := by
  unfold State.lineCharacter
  rw [ht]

/-- The transmitter's state after its work (R155 to R157). -/
theorem SiteLine.rest_eq (l : SiteLine) :
    l.rest = { l with transmitter := if l.queue = [] then .idle else .waitingGap } := by
  unfold SiteLine.rest
  cases l.queue <;> rfl

theorem State.markFrom_free (hs : ∀ w, s.line.transmitter ≠ .sendingBreak w) (t : Nat) :
    s.markFrom t = if s.line.receiver = .break then s.line.idleFrom else some t := by
  unfold State.markFrom
  split
  · exact absurd ‹_› (hs _)
  · rfl

/-- Where the line lies at mark depends, of the transmitter, on its own break alone (R154, R157). -/
theorem State.markFrom_transmitter {x : Transmitter} (hs : ∀ w, s.line.transmitter ≠ .sendingBreak w)
    (hx : ∀ w, x ≠ .sendingBreak w) (t : Nat) :
    ({ s with line := { s.line with transmitter := x } } : State).markFrom t = s.markFrom t := by
  rw [State.markFrom_free hs, State.markFrom_free (by exact hx)]

theorem State.takeEcho_next (ht : s.line.transmitter = .sending out) {c : LineChar} (he : echoEqual out c = true)
    (hmore : out.echoed + 1 < out.chars.length) : s.takeEcho out c = { s with line := { s.line with
      transmitter := .sending { out with echoed := out.echoed + 1 }
      idleFrom := s.markFrom (out.begun + out.chars.length * 6875) } } := by
  unfold State.takeEcho
  rw [if_pos he, if_pos hmore, State.atMarkFrom_eq, State.markFrom_transmitter (by simp [ht]) (by simp)]
  rfl

theorem State.takeEcho_last (ht : s.line.transmitter = .sending out) {c : LineChar} (he : echoEqual out c = true)
    (hlast : out.chars.length = out.echoed + 1) : s.takeEcho out c = { s with line := { s.line with
      transmitter := if s.line.queue = [] then .idle else .waitingGap, idleFrom := s.markFrom s.instant } } := by
  unfold State.takeEcho
  rw [if_pos he, if_neg (by omega), State.atMarkFrom_eq, SiteLine.rest_eq,
    State.markFrom_transmitter (by simp [ht]) (by split <;> simp)]

/-- A mismatch is a collision (R156); a framing error keeps the line at space for a while (R142). -/
theorem State.takeEcho_mismatch {c : LineChar} (he : echoEqual out c = false) : s.takeEcho out c = { s with
    choices := if c = .framingError ∧ s.line.receiver ≠ .break then s.choices + 1 else s.choices
    line := { s.line with
      transmitter := if s.line.queue = [] then .idle else .waitingGap
      idleFrom := s.markFrom (if c = .framingError then s.instant + s.spaceLeft else s.instant)
      collision := true } } := by
  unfold State.takeEcho State.collide
  rw [if_neg (by rw [he]; decide), SiteLine.rest_eq]
  by_cases hc : c = .framingError
  · by_cases hr : s.line.receiver = .break
    · rw [State.endCharacter_break hr, State.markFrom_break hr]
      simp [hr]
    · rw [hc, State.endCharacter_error hr]
      simp [hr]
  · rw [State.endCharacter_value hc]
    simp [hc]

theorem State.echoLate_sending (ht : s.line.transmitter = .sending out) :
    s.echoLate = decide (out.begun + (out.echoed + 3) * 6875 ≤ s.instant) := by
  unfold State.echoLate
  rw [ht]
  rfl

theorem State.takesLine_sending (ht : s.line.transmitter = .sending out) :
    s.takesLine = decide (s.instant < out.begun + out.chars.length * 6875) := by
  unfold State.takesLine
  rw [ht]
  rfl

theorem exec_echoTimeout_late (h : s.echoLate = true) : exec .echoTimeout s = .next { s with line := { s.line with
    transmitter := if s.line.queue = [] then .idle else .waitingGap
    idleFrom := s.line.idleFrom.map (min · s.instant), collision := true } } := by
  refine congrArg _ ((if_pos h).trans ?_)
  unfold State.collide
  rw [SiteLine.rest_eq]
  rfl

end Sending

/-! ### The part's own break at its own receiver (R149, R157) -/

section OwnBreak

variable {s : State} {w : Nat}

theorem State.breakDone_sendingBreak (ht : s.line.transmitter = .sendingBreak w) :
    s.breakDone = decide (w ≤ s.instant) := by
  unfold State.breakDone
  rw [ht]

theorem State.ownSpaceFor_sendingBreak (ht : s.line.transmitter = .sendingBreak w) (bits : Nat) :
    s.ownSpaceFor bits = (decide (w ≤ s.instant + (48 - bits) * 625) && decide (s.instant < w)) := by
  unfold State.ownSpaceFor State.holdsSpace
  rw [ht]
  rfl

theorem State.markFrom_sendingBreak (ht : s.line.transmitter = .sendingBreak w) (t : Nat) :
    s.markFrom t = s.line.idleFrom := by
  unfold State.markFrom
  rw [ht]

/-- The framing error that the part hears of its own break drops the frame in progress (R145, R149); the idle count
stands. -/
theorem exec_receiveCharacter_ownBreak (ht : s.line.transmitter = .sendingBreak w) (hr : s.line.receiver = .receiving) :
    exec (.receiveCharacter .framingError) s = .next { s with
      choices := s.choices + 1, line := { s.line with receiver := .muted, assembler := [] } } := by
  rw [exec_character (.inl rfl), State.lineCharacter_received (by simp [ht]), State.endCharacter_error (by simp [hr]),
    State.receive_error (by exact hr), State.markFrom_sendingBreak ht]

theorem exec_breakRelease_done (h : s.breakDone = true) : exec .breakRelease s = .next s.releaseBreak :=
  congrArg _ (if_pos h)

theorem State.releaseBreak_atMark (hr : s.line.receiver ≠ .break) : s.releaseBreak = { s with line := { s.line with
    transmitter := if s.line.queue = [] then .idle else .waitingGap, idleFrom := some s.instant } } := by
  rcases s.releaseBreak_cases with ⟨-, he⟩ | ⟨hb, -⟩ | ⟨hb, -⟩
  · rw [he, SiteLine.rest_eq]
  · exact absurd hb hr
  · exact absurd hb hr

theorem State.releaseBreak_heard (hr : s.line.receiver = .break) : s.releaseBreak =
    if Config.otherBreak s.choices = false then { s with
      choices := s.choices + 1
      line := { s.line with
        receiver := .idle, transmitter := if s.line.queue = [] then .idle else .waitingGap
        idleFrom := some s.instant }
      peers := { s.peers with holdDeadline := some (s.clock + 3000) } }
    else { s with
      choices := s.choices + 1
      line := { s.line with
        transmitter := if s.line.queue = [] then .idle else .waitingGap, idleFrom := none } } := by
  rcases s.releaseBreak_cases with ⟨hb, -⟩ | ⟨-, ho, he⟩ | ⟨-, ho, he⟩
  · exact absurd hr hb
  · rw [he, if_neg (by rw [ho]; decide), SiteLine.rest_eq]
  · rw [he, if_pos ho, SiteLine.rest_eq]

/-! ### Time that passes (log entry 2) -/

theorem earliestAfter_le {now : Nat} (ts : List Nat) (bound : Nat) : earliestAfter now bound ts ≤ bound := by
  unfold earliestAfter
  induction ts generalizing bound with
  | nil => exact le_rfl
  | cons t ts ih =>
    rw [List.foldl_cons]
    refine (ih _).trans ?_
    split <;> omega

theorem lt_earliestAfter {now : Nat} (ts : List Nat) {bound : Nat} (h : now < bound) :
    now < earliestAfter now bound ts := by
  unfold earliestAfter
  induction ts generalizing bound with
  | nil => exact h
  | cons t ts ih =>
    rw [List.foldl_cons]
    exact ih (by split <;> omega)

theorem earliestAfter_le_mem {now t : Nat} {ts : List Nat} (ht : t ∈ ts) (hn : now < t) (bound : Nat) :
    earliestAfter now bound ts ≤ t := by
  induction ts generalizing bound with
  | nil => cases ht
  | cons x xs ih =>
    rcases List.mem_cons.mp ht with rfl | hx
    · refine (earliestAfter_le xs _).trans ?_
      dsimp only
      split <;> omega
    · exact ih hx _

theorem State.passTime_instant (s : State) : s.passTime.instant = s.nextInstant := Nat.div_add_mod' _ _

/-- With no command waiting and no event standing, time passes (log entry 2). -/
theorem step_passTime (hp : s.pending = []) (ho : s.outstanding = []) : step s = .next s.passTime := by
  unfold step State.idle
  rw [hp, ho]

theorem State.instant_lt_nextInstant (hf : s.fine < finePerMs) : s.instant < s.nextInstant :=
  lt_earliestAfter _ (by unfold State.instant; linarith)

theorem State.nextInstant_le_ownBreak (ht : s.line.transmitter = .sendingBreak w) (h : s.instant < w - 15000) :
    s.nextInstant ≤ w - 15000 := by
  refine earliestAfter_le_mem ?_ h _
  unfold State.fineDeadlines
  rw [ht]
  simp [finePerBit]

/-- Time passes no further than the 24 bit times at which the part's own break is heard (R149, log entry 29). -/
theorem State.nextInstant_ownBreak (ht : s.line.transmitter = .sendingBreak w) (ho : s.outstanding = [])
    (hr : s.line.receiver ≠ .break) (hw : s.instant < w) : s.nextInstant + 15000 ≤ w := by
  have hheard : ¬ w ≤ s.instant + 15000 := fun h => by
    have hstands := s.ownBreakHeard_stands (by simp [State.ownBreakHeard, State.ownSpaceFor_sendingBreak ht, hr, hw, h])
    rw [ho] at hstands
    cases hstands
  have := State.nextInstant_le_ownBreak ht (by omega)
  omega

end OwnBreak

/-- Settles O55: sending begins by `State.beginSend_head` and goes on by the `State.takeEcho_…` lemmas; the part's own
break is heard by `exec_receiveCharacter_ownBreak` and `State.nextInstant_ownBreak`, and released by the
`State.releaseBreak_…` lemmas. -/
theorem sendingRunsOnEcho : Obligations.SendingRunsOnEcho := by
  intro s
  refine ⟨fun cfg t0 f rest hc ht hi hq => ?gap, exec_accessGapExpiry_not_waiting, fun out v ht hv => ?sending,
    fun w ht => ?ownBreak⟩
  case gap =>
    have hgap := State.gapOver_waiting hc ht hi
    refine ⟨fun hover => ?_, fun hearly => congrArg _ (if_neg ?_)⟩
    · rw [← State.beginSend_head hc hq]
      exact congrArg _ (if_pos (hgap.trans (decide_eq_true hover)))
    · rw [hgap, decide_eq_false (Nat.not_le.mpr hearly)]
      decide
  case sending =>
    have hlate := State.echoLate_sending ht
    have htakes := State.takesLine_sending ht
    refine ⟨fun i c hi => ?_, fun h => exec_echoTimeout_late (hlate.trans (decide_eq_true h)), fun h => ?_, fun h => ?_,
      fun h => exec_startBit_free (htakes.trans (decide_eq_false (Nat.not_lt.mpr h)))⟩
    · rw [exec_character hi.symm, State.lineCharacter_sending ht]
      refine ⟨fun hc => ⟨fun hmore => ?_, fun hlast => ?_⟩, fun hc => ?_⟩
      · rw [State.takeEcho_next ht ((echoEqual_iff hv c).mpr hc) hmore]
      · rw [State.takeEcho_last ht ((echoEqual_iff hv c).mpr hc) hlast]
      · rw [State.takeEcho_mismatch (Bool.eq_false_iff.mpr fun he => hc ((echoEqual_iff hv c).mp he))]
    · exact congrArg _ (if_neg (by rw [hlate, decide_eq_false (Nat.not_le.mpr h)]; decide))
    · exact congrArg _ (if_pos (htakes.trans (decide_eq_true h)))
  case ownBreak =>
    have hdone := State.breakDone_sendingBreak ht
    have hspace := State.ownSpaceFor_sendingBreak ht
    refine ⟨fun hlt => ⟨?early, fun h hr => ⟨s.ownFramingError_stands ?_, exec_receiveCharacter_ownBreak ht hr⟩,
      fun h hr => s.ownBreakHeard_stands ?_⟩, fun hp hf ho hr => ?passes, fun hw => ⟨s.breakDone_stands ?_, ?_, ?_⟩⟩
    case early => exact congrArg _ (if_neg (by rw [hdone, decide_eq_false (Nat.not_le.mpr hlt)]; decide))
    case passes =>
      have hlt : s.instant < w := by
        by_contra hw
        have hstands := s.breakDone_stands (hdone.trans (decide_eq_true (Nat.not_lt.mp hw)))
        rw [ho] at hstands
        cases hstands
      refine ⟨s.passTime, step_passTime hp ho, rfl, ?_, ?_⟩ <;> rw [State.passTime_instant]
      · exact State.instant_lt_nextInstant hf
      · exact State.nextInstant_ownBreak ht ho hr hlt
    · simp [State.ownFramingError, hspace, hr, h, hlt]
    · simp [State.ownBreakHeard, hspace, hr, h, hlt]
    · rw [hdone, decide_eq_true hw]
    · exact fun hr => (exec_breakRelease_done (hdone.trans (decide_eq_true hw))).trans
        (congrArg _ (State.releaseBreak_atMark hr))
    · exact fun hr => (exec_breakRelease_done (hdone.trans (decide_eq_true hw))).trans
        (congrArg _ (State.releaseBreak_heard hr))

end Sys2Proof.Machine

namespace Sys2Proof.Machine

open Sys2Proof

/-! ### The entry that a frame's sender takes (R160) -/

/-- The entry heard earliest, counted from `i`, and when it was heard. -/
theorem earliestEntry_spec (i : Nat) {os : List (Option Peer)} (h : os ≠ []) :
    ∃ j o, earliestEntry i os = some (i + j, heardAt o) ∧ os[j]? = some o ∧ ∀ x ∈ os, heardAt o ≤ heardAt x := by
  induction os generalizing i with
  | nil => exact absurd rfl h
  | cons o os ih =>
    unfold earliestEntry
    by_cases hos : os = []
    · subst hos
      exact ⟨0, o, rfl, rfl, by simp⟩
    · obtain ⟨j, x, he, hx, hmin⟩ := ih (i + 1) hos
      rw [he]
      dsimp only
      split
      · refine ⟨j + 1, x, by rw [Nat.add_right_comm, Nat.add_assoc], hx, fun y hy => ?_⟩
        rcases List.mem_cons.mp hy with rfl | hy
        · omega
        · exact hmin y hy
      · refine ⟨0, o, rfl, rfl, fun y hy => ?_⟩
        rcases List.mem_cons.mp hy with rfl | hy
        · exact le_rfl
        · have := hmin y hy
          omega

section Entry

variable {st now : Nat} {table : List (Option Peer)}

/-- No record of the station stands in the table. -/
def Unheard (st : Nat) (table : List (Option Peer)) : Prop :=
  ∀ (j : Nat) (q : Peer), table[j]? = some (some q) → q.station ≠ st

theorem isStation_iff (o : Option Peer) : isStation st o = true ↔ ∃ q, o = some q ∧ q.station = st := by
  cases o <;> simp [isStation]

theorem findIdx?_isStation_eq_none_iff : table.findIdx? (isStation st) = none ↔ Unheard st table := by
  rw [List.findIdx?_eq_none_iff]
  constructor
  · intro h j q hq hs
    have := h _ (List.mem_of_getElem? hq)
    simp [isStation, hs] at this
  · intro h o ho
    obtain ⟨j, hj⟩ := List.mem_iff_getElem?.mp ho
    refine Bool.eq_false_iff.mpr fun hst => ?_
    obtain ⟨q, rfl, hs⟩ := (isStation_iff o).mp hst
    exact h j q hj hs

theorem entryFor_of_findIdx? {i : Nat} (h : table.findIdx? (isStation st) = some i) : entryFor st table = i := by
  unfold entryFor
  rw [h]

theorem exists_of_findIdx?_isStation {i : Nat} (h : table.findIdx? (isStation st) = some i) :
    ∃ q, table[i]? = some (some q) ∧ q.station = st := by
  obtain ⟨hi, hst, -⟩ := List.findIdx?_eq_some_iff_getElem.mp h
  obtain ⟨q, hq, hs⟩ := (isStation_iff _).mp hst
  exact ⟨q, by rw [List.getElem?_eq_getElem hi, hq], hs⟩

/-- A station that has a record keeps its entry. -/
theorem entryFor_own (h : ∃ (j : Nat) (q : Peer), table[j]? = some (some q) ∧ q.station = st) :
    ∃ q : Peer, table[entryFor st table]? = some (some q) ∧ q.station = st := by
  cases hi : table.findIdx? (isStation st) with
  | none =>
    obtain ⟨j, q, hq, hs⟩ := h
    exact absurd hs (findIdx?_isStation_eq_none_iff.mp hi j q hq)
  | some i =>
    rw [entryFor_of_findIdx? hi]
    exact exists_of_findIdx?_isStation hi

/-- The record of a station that has one is that record, last heard now. -/
theorem heardPeer_own {q : Peer} (hq : table[entryFor st table]? = some (some q)) (hs : q.station = st) :
    heardPeer st now table = { q with lastHeard := now } := by
  unfold heardPeer
  rw [List.find?_eq_bind_findIdx?_getElem?]
  cases hi : table.findIdx? (isStation st) with
  | none => exact absurd hs (findIdx?_isStation_eq_none_iff.mp hi _ q hq)
  | some i =>
    rw [entryFor_of_findIdx? hi] at hq
    rw [Option.bind_some, hq]

/-- The record of a station that has none is a new one. -/
theorem heardPeer_new (h : Unheard st table) : heardPeer st now table = ⟨st, now, none, none, none⟩ := by
  unfold heardPeer
  rw [List.find?_eq_bind_findIdx?_getElem?, findIdx?_isStation_eq_none_iff.mpr h]
  rfl

theorem heardPeer_heard : (heardPeer st now table).station = st ∧ (heardPeer st now table).lastHeard = now := by
  by_cases h : Unheard st table
  · rw [heardPeer_new h]
    exact ⟨rfl, rfl⟩
  · unfold Unheard at h
    push Not at h
    obtain ⟨q, hq, hs⟩ := entryFor_own h
    rw [heardPeer_own hq hs]
    exact ⟨hs, rfl⟩

theorem entryFor_unheard (h : Unheard st table) : entryFor st table =
    (table.findIdx? Option.isNone).getD (((earliestEntry 0 table).map Prod.fst).getD 0) := by
  unfold entryFor
  rw [findIdx?_isStation_eq_none_iff.mpr h]
  cases table.findIdx? Option.isNone <;> rfl

/-- A new station takes the lowest empty entry, where there is one. -/
theorem entryFor_empty (h : Unheard st table) {j : Nat} (hj : table[j]? = some none) :
    table[entryFor st table]? = some none ∧ entryFor st table ≤ j := by
  rw [entryFor_unheard h]
  cases hi : table.findIdx? Option.isNone with
  | none => simpa using List.findIdx?_eq_none_iff.mp hi none (List.mem_of_getElem? hj)
  | some i =>
    obtain ⟨hlt, hnone, hbefore⟩ := List.findIdx?_eq_some_iff_getElem.mp hi
    obtain ⟨hjlt, hjnone⟩ := List.getElem?_eq_some_iff.mp hj
    refine ⟨(List.getElem?_eq_getElem hlt).trans (congrArg some (Option.isNone_iff_eq_none.mp hnone)), ?_⟩
    by_contra hlow
    exact hbefore j (Nat.not_le.mp hlow) (by rw [hjnone]; rfl)

/-- With no entry empty, it takes the one heard earliest. -/
theorem entryFor_full (h : Unheard st table) (hfull : none ∉ table) (hne : table ≠ []) :
    ∃ o, table[entryFor st table]? = some o ∧ ∀ x ∈ table, heardAt o ≤ heardAt x := by
  obtain ⟨j, o, he, ho, hmin⟩ := earliestEntry_spec 0 hne
  have hnone : table.findIdx? Option.isNone = none := List.findIdx?_eq_none_iff.mpr fun x hx => by
    cases x with
    | none => exact absurd hx hfull
    | some p => rfl
  rw [entryFor_unheard h, hnone, he]
  exact ⟨o, by simpa using ho, hmin⟩

theorem entryFor_earliest (h : Unheard st table) (hfull : none ∉ table) {j : Nat} {q q' : Peer}
    (hq : table[entryFor st table]? = some (some q)) (hq' : table[j]? = some (some q')) :
    q.lastHeard ≤ q'.lastHeard := by
  obtain ⟨o, ho, hmin⟩ := entryFor_full h hfull (List.ne_nil_of_mem (List.mem_of_getElem? hq'))
  obtain rfl : o = some q := Option.some.inj (ho.symm.trans hq)
  exact hmin _ (List.mem_of_getElem? hq')

theorem entryFor_lt (hne : table ≠ []) : entryFor st table < table.length := by
  have hvalid : ∃ o, table[entryFor st table]? = some o := by
    by_cases h : Unheard st table
    · by_cases hfull : none ∈ table
      · obtain ⟨j, hj⟩ := List.mem_iff_getElem?.mp hfull
        exact ⟨_, (entryFor_empty h hj).1⟩
      · obtain ⟨o, ho, -⟩ := entryFor_full h hfull hne
        exact ⟨o, ho⟩
    · unfold Unheard at h
      push Not at h
      obtain ⟨q, hq, -⟩ := entryFor_own h
      exact ⟨_, hq⟩
  obtain ⟨o, ho⟩ := hvalid
  exact (List.getElem?_eq_some_iff.mp ho).1

end Entry

end Sys2Proof.Machine

namespace Sys2Proof.Machine

open Sys2Proof

/-! ### A peer's fix (R31, R34, R42) -/

theorem TargetRecord.takeFix_later {f : Fix} {r : TargetRecord} (h : ∀ a, r.fixA = some a → a.time < f.time) :
    r.takeFix f = some { r with fixA := some f, fixB := r.fixA, velocity := velocityOf r.cls (some f) r.fixA } := by
  unfold TargetRecord.takeFix
  cases ha : r.fixA with
  | none => rfl
  | some a => exact if_pos (h a ha)

theorem TargetRecord.takeFix_late {f a : Fix} {r : TargetRecord} (ha : r.fixA = some a) (h : f.time ≤ a.time) :
    r.takeFix f = none := by
  unfold TargetRecord.takeFix
  rw [ha]
  exact if_neg (Nat.not_lt.mpr h)

/-- The due time is the later of what it was and the fix's time plus the interval, for a MACHINE record (R42). -/
theorem TargetRecord.dueAfterPeerFix_eq (f : Fix) (r : TargetRecord) : r.dueAfterPeerFix f = { r with
    due := if r.cls = PrismClass.machine then max r.due (f.time + r.interval) else r.due
    dueArmed := r.dueArmed || (decide (r.cls = PrismClass.machine) && decide (r.due < f.time + r.interval)) } := by
  unfold TargetRecord.dueAfterPeerFix TargetRecord.setDue
  by_cases hm : r.cls = .machine
  · by_cases hd : r.due < f.time + r.interval
    · simp [hm, hd, max_eq_right hd.le]
    · rw [if_neg fun h => hd h.2, if_pos hm, max_eq_left (Nat.not_lt.mp hd), decide_eq_false hd, Bool.and_false,
        Bool.or_false]
  · simp [hm]

section PeerFix

variable {s : State} {k : Nat} {r : TargetRecord} {station prism quality age : Nat} {pos : Grid}

theorem State.offerPeerFix_unknown (h : ∀ q : TargetRecord, some q ∈ s.table → q.prism ≠ prism) :
    s.offerPeerFix station prism pos quality age = s := by
  unfold State.offerPeerFix
  rw [State.slotOf_unknown h]

variable (hc : s.Carries k r prism)
include hc

theorem State.offerPeerFix_unfit (h : r.cls = .control ∨ quality < 9 ∨ 5000 < age) :
    s.offerPeerFix station prism pos quality age = s := by
  obtain ⟨hslot, hrec⟩ := State.slotOf_carries hc
  have hfix : peerFix r.cls station pos quality age s.clock = none := if_pos h
  unfold State.offerPeerFix
  simp only [hslot, hrec, hfix]

theorem State.offerPeerFix_late {a : Fix} (ha : r.fixA = some a) (h : s.clock - age ≤ a.time) :
    s.offerPeerFix station prism pos quality age = s := by
  by_cases hunfit : r.cls = .control ∨ quality < 9 ∨ 5000 < age
  · exact State.offerPeerFix_unfit hc hunfit
  · obtain ⟨hslot, hrec⟩ := State.slotOf_carries hc
    have hfix : peerFix r.cls station pos quality age s.clock =
        some ⟨pos, s.clock - age, .peer station, quality - 1⟩ := if_neg hunfit
    have hnone : r.takeFix ⟨pos, s.clock - age, .peer station, quality - 1⟩ = none := TargetRecord.takeFix_late ha h
    unfold State.offerPeerFix
    simp only [hslot, hrec, hfix, hnone]

theorem State.offerPeerFix_taken {x : Fix} (hcls : r.cls ≠ .control) (hquality : 9 ≤ quality) (hage : age ≤ 5000)
    (hx : x = ⟨pos, s.clock - age, .peer station, quality - 1⟩) (hlater : ∀ a, r.fixA = some a → a.time < x.time) :
    s.offerPeerFix station prism pos quality age = { s with table := s.table.set k (some { r with
      fixA := some x
      fixB := r.fixA
      velocity := velocityOf r.cls (some x) r.fixA
      due := if r.cls = PrismClass.machine then max r.due (x.time + r.interval) else r.due
      dueArmed := r.dueArmed ||
        (decide (r.cls = PrismClass.machine) && decide (r.due < x.time + r.interval)) }) }.select := by
  obtain ⟨hslot, hrec⟩ := State.slotOf_carries hc
  have hfix : peerFix r.cls station pos quality age s.clock = some x := by
    rw [hx]
    exact if_neg (by simp [hcls, Nat.not_lt.mpr hquality, Nat.not_lt.mpr hage])
  unfold State.offerPeerFix
  simp only [hslot, hrec, hfix, TargetRecord.takeFix_later hlater, TargetRecord.dueAfterPeerFix_eq]
  rfl

end PeerFix

/-! ### A peer's intent (R43, R96, R166) -/

section Defer

variable {now t : Nat} {r : TargetRecord}

theorem TargetRecord.takeDefer_idle (hs : r.state = .idle) (ht : now < t) :
    r.takeDefer now t = { r with state := .deferred, deferUntil := some t, deferArmed := true } := by
  unfold TargetRecord.takeDefer
  rw [hs]
  exact if_pos ht

/-- A record that is not IDLE keeps the later of the two times (R43). -/
theorem TargetRecord.takeDefer_later (hs : r.state ≠ .idle) :
    r.takeDefer now t = { r with deferUntil := some (max (r.deferUntil.getD 0) t), deferArmed := true } := by
  have hlater : laterDefer r.deferUntil t = max (r.deferUntil.getD 0) t := by
    cases r.deferUntil <;> simp [laterDefer]
  unfold TargetRecord.takeDefer TargetRecord.setDefer
  rw [hlater]
  cases h : r.state with
  | idle => exact absurd h hs
  | active | deferred => rfl

end Defer

/-- The sender of an INTENT is better (R166): no own distance, a smaller one of its own, or the lower station number. -/
theorem senderBetter_iff {own : Option Nat} {ownStation sender distance : Nat} :
    senderBetter own ownStation sender distance = true ↔
      own = none ∨ ∃ d, own = some d ∧ (distance < d ∨ distance = d ∧ sender < ownStation) := by
  cases own <;> simp [senderBetter]

section Intent

variable {s : State} {k : Nat} {r : TargetRecord} {sender prism distance hold t : Nat} {cfg : StationConfig}

/-- An INTENT of no held MACHINE prism, or of hold 0, is not compared (R165). -/
theorem State.compareIntent_ignored
    (h : (∀ q : TargetRecord, some q ∈ s.table → q.prism = prism → q.cls ≠ .machine) ∨ hold = 0) :
    s.compareIntent sender prism distance hold = s := by
  unfold State.compareIntent
  cases hslot : s.slotOf prism with
  | none => rfl
  | some i =>
    obtain ⟨q, hq, hprism⟩ := State.slotOf_some hslot
    have hrec : s.record i = some q := State.record_of_table hq
    rw [Option.bind_some, hrec]
    refine if_neg ?_
    rintro ⟨hcls, hhold, -⟩
    exact h.elim (fun h => h q (List.mem_of_getElem? hq) hprism hcls) hhold

variable (hc : s.Carries k r prism)
include hc

theorem State.compareIntent_carries (hcfg : s.config = some cfg) : s.compareIntent sender prism distance hold =
    if r.cls = .machine ∧ hold ≠ 0 ∧ senderBetter (s.ownDistance r) cfg.station sender distance = true then
      s.deferRequest prism (s.clock + hold) else s := by
  obtain ⟨hslot, hrec⟩ := State.slotOf_carries hc
  unfold State.compareIntent
  rw [hslot, Option.bind_some, hrec, hcfg]
  rfl

/-- An INTENT of a better sender asks for the defer (R166, R167). -/
theorem State.compareIntent_better (hcfg : s.config = some cfg) (hcls : r.cls = .machine) (hhold : 0 < hold)
    (hbetter : s.ownDistance r = none ∨
      ∃ d, s.ownDistance r = some d ∧ (distance < d ∨ distance = d ∧ sender < cfg.station)) :
    s.compareIntent sender prism distance hold = s.deferRequest prism (s.clock + hold) :=
  (State.compareIntent_carries hc hcfg).trans (if_pos ⟨hcls, hhold.ne', senderBetter_iff.mpr hbetter⟩)

theorem State.compareIntent_worse {d : Nat} (hcfg : s.config = some cfg) (hown : s.ownDistance r = some d)
    (hworse : d < distance ∨ distance = d ∧ cfg.station < sender) : s.compareIntent sender prism distance hold = s := by
  refine (State.compareIntent_carries hc hcfg).trans (if_neg ?_)
  rintro ⟨-, -, hbetter⟩
  rcases senderBetter_iff.mp hbetter with hnone | ⟨e, he, hlt⟩
  · rw [hown] at hnone
    cases hnone
  · obtain rfl := Option.some.inj (hown.symm.trans he)
    omega

/-- A running aim on the record ends YIELDED (R96). -/
theorem State.deferRequest_running (hs : r.state = .active) (hrun : s.engine.state.isRunningAim = true) :
    s.deferRequest prism t = s.endAim .yielded (some t) := by
  obtain ⟨hslot, hrec⟩ := State.slotOf_carries hc
  unfold State.deferRequest
  rw [hslot]
  dsimp only
  rw [hrec]
  exact if_pos ⟨hs, hrun⟩

theorem State.deferRequest_record (h : ¬ (r.state = .active ∧ s.engine.state.isRunningAim = true)) :
    s.deferRequest prism t = { s with table := s.table.set k (some (r.takeDefer s.clock t)) }.select := by
  obtain ⟨hslot, hrec⟩ := State.slotOf_carries hc
  unfold State.deferRequest
  rw [hslot]
  dsimp only
  rw [hrec]
  exact if_neg h

theorem State.deferRequest_idle (hs : r.state = .idle) (ht : s.clock < t) : s.deferRequest prism t =
    { s with table := s.table.set k (some { r with
      state := .deferred, deferUntil := some t, deferArmed := true }) }.select := by
  rw [State.deferRequest_record hc (by simp [hs]), TargetRecord.takeDefer_idle hs ht]

/-- A DEFERRED record, or one of a suspended aim, takes the later time (R43). -/
theorem State.deferRequest_later
    (hs : r.state = .deferred ∨ r.state = .active ∧ s.engine.state.isRunningAim = false) : s.deferRequest prism t =
    { s with table := s.table.set k (some { r with
      deferUntil := some (max (r.deferUntil.getD 0) t), deferArmed := true }) }.select := by
  rcases hs with hs | ⟨hs, hrun⟩
  · rw [State.deferRequest_record hc (by simp [hs]), TargetRecord.takeDefer_later (by simp [hs])]
  · rw [State.deferRequest_record hc (by simp [hrun]), TargetRecord.takeDefer_later (by simp [hs])]

end Intent

/-! ### The end of a frame (R146, R160) -/

/-- What a valid frame writes into its sender's record (R163, R165). -/
def Received.onto (now : Nat) (f : Received) (p : Peer) : Peer :=
  match f with
  | .presence run pos => { p with run := some run, pos := pos }
  | .sighting .. => p
  | .intent prism distance hold => { p with intent := some ⟨prism, distance, now + hold⟩ }

theorem Received.onto_heard (now : Nat) (f : Received) (p : Peer) :
    (f.onto now p).station = p.station ∧ (f.onto now p).lastHeard = p.lastHeard := by
  cases f <;> exact ⟨rfl, rfl⟩

theorem Received.onto_intent (now : Nat) {f : Received} (p : Peer)
    (h : ∀ prism distance hold, f ≠ .intent prism distance hold) : (f.onto now p).intent = p.intent := by
  cases f with
  | intent prism distance hold => exact absurd rfl (h _ _ _)
  | presence | sighting => rfl

theorem Received.onto_presence (now : Nat) {f : Received} (p : Peer) (h : ∀ run pos, f ≠ .presence run pos) :
    (f.onto now p).run = p.run ∧ (f.onto now p).pos = p.pos := by
  cases f with
  | presence run pos => exact absurd rfl (h _ _)
  | sighting | intent => exact ⟨rfl, rfl⟩

/-- The assembler emptied and the receiver IDLE (R146). -/
def State.frameDropped (s : State) : State := { s with line := { s.line with receiver := .idle, assembler := [] } }

/-- Besides, the sender's record in the peer table (R160). -/
def State.frameHeard (sender : Nat) (f : Received) (s : State) : State :=
  { s.frameDropped with peers := { s.peers with
      table := s.peers.table.set (entryFor sender s.peers.table)
        (some (f.onto s.clock (heardPeer sender s.clock s.peers.table))) } }

/-- The end of a frame by what its tests come to (R146, R147). -/
def State.frameJudged (v : Validation) (s : State) : State :=
  match v with
  | .discarded => s.frameDropped
  | .clash => s.frameDropped.clash
  | .valid sender f => s.frameDropped.takeFrame sender f

theorem State.clash_eq (s : State) : s.clash = { s with
    line := { s.line with
      listenOnly := true, queue := []
      transmitter := if s.line.transmitter = .waitingGap then .idle else s.line.transmitter }
    peers := { s.peers with clash := true }
    link := { s.link with events := { s.link.events with stationClash := true } } } := by
  unfold State.clash State.forceListenOnly
  by_cases h : s.line.transmitter = .waitingGap <;> simp [State.raise, setMark, h]

section FrameEnd

variable {s : State} {cfg : StationConfig} {sender : Nat} {f : Received}

theorem State.frameOver_receiving {t0 : Nat} (hr : s.line.receiver = .receiving) (hi : s.line.idleFrom = some t0) :
    s.frameOver = decide (13750 ≤ s.instant - t0) := by
  simp [State.frameOver, State.idleTime, finePerChar, finePerBit, hr, hi]

theorem exec_frameEnd_over (h : s.frameOver = true) (hc : s.config = some cfg) :
    exec .frameEnd s = lit (s.frameJudged (validate cfg s.line.assembler)) := by
  refine congrArg lit ((if_pos h).trans ?_)
  unfold State.endFrame
  dsimp only
  split
  · rename_i hnone
    rw [hc] at hnone
    cases hnone
  · rename_i c hsome
    obtain rfl := Option.some.inj (hc.symm.trans hsome)
    cases validate cfg s.line.assembler <;> rfl

theorem exec_frameEnd_ignored (hl : s.lightConsistent) (h : s.frameOver = false) : exec .frameEnd s = .next s :=
  Eq.trans (congrArg lit (if_neg (by rw [h]; decide))) (lit_eq hl)

/-- A frame in RECEIVING changes, of what R128 looks at, nothing at its end: its receiver was in no break (R169). -/
theorem State.frameEnded_lightConsistent {l : SiteLine} {p : PeerExchange} {k : CommandLink} (hl : s.lightConsistent)
    (hr : s.line.receiver = .receiving) (hidle : l.receiver = .idle) (hin : p.holdIn = s.peers.holdIn)
    (hd : p.holdDeadline = s.peers.holdDeadline) :
    ({ s with line := l, peers := p, link := k } : State).lightConsistent := by
  refine (State.LightKept.beside ?_ : s.LightKept _) hl
  simp [State.held, hr, hidle, hin, hd]

theorem State.frameHeard_lightConsistent (hl : s.lightConsistent) (hr : s.line.receiver = .receiving) :
    (s.frameHeard sender f).lightConsistent :=
  State.frameEnded_lightConsistent (s := s) hl hr rfl rfl rfl

end FrameEnd

/-- Settles O56: the frame is judged by `exec_frameEnd_over`; its sender's record is that of the `entryFor_…` and
`heardPeer_…` lemmas, and what it names is changed by the `State.offerPeerFix_…`, `State.compareIntent_…` and
`State.deferRequest_…` lemmas. -/
theorem frameEndHandsOn : Obligations.FrameEndHandsOn := by
  intro s cfg t0 hcfg hl
  refine ⟨fun hr => exec_frameEnd_ignored hl (by simp [State.frameOver, hr]), fun hr hi => ⟨fun hearly => ?early,
    fun hover => ⟨fun hv => ?discarded, fun hv => ?clash, fun sender f hv hlen => ?valid⟩⟩⟩
  case early =>
    exact exec_frameEnd_ignored hl ((State.frameOver_receiving hr hi).trans (decide_eq_false (Nat.not_le.mpr hearly)))
  all_goals
    have hexec := exec_frameEnd_over ((State.frameOver_receiving hr hi).trans (decide_eq_true hover)) hcfg
    rw [hv] at hexec
  case discarded => exact hexec.trans (lit_eq (State.frameEnded_lightConsistent hl hr rfl rfl rfl))
  case clash =>
    refine hexec.trans ?_
    rw [State.frameJudged, State.clash_eq]
    exact lit_eq (State.frameEnded_lightConsistent (s := s) hl hr rfl rfl rfl)
  case valid =>
    have hne : s.peers.table ≠ [] := List.ne_nil_of_length_pos (by omega)
    obtain ⟨hstation, hlast⟩ := heardPeer_heard (st := sender) (now := s.clock) (table := s.peers.table)
    obtain ⟨hsame, hnow⟩ := f.onto_heard s.clock (heardPeer sender s.clock s.peers.table)
    have hgoes : ∀ w, s.frameJudged (.valid sender f) = w → exec .frameEnd s = lit w :=
      fun w hw => hexec.trans (congrArg lit hw)
    have hstays (h : s.frameJudged (.valid sender f) = s.frameHeard sender f) :
        exec .frameEnd s = .next (s.frameHeard sender f) :=
      (hgoes _ h).trans (lit_eq (State.frameHeard_lightConsistent hl hr))
    refine ⟨entryFor sender s.peers.table, s.frameHeard sender f,
      f.onto s.clock (heardPeer sender s.clock s.peers.table), hlen ▸ entryFor_lt hne, rfl,
      hsame.trans hstation, hnow.trans hlast, fun q hq hs => ?known, entryFor_own,
      fun hnew => ⟨fun h => ?newIntent, fun h => ?newPresence, fun j => entryFor_empty hnew,
        fun hfull j q q' => entryFor_earliest hnew hfull⟩, ?presence, ?sighting, ?intent⟩
    case known =>
      have hown := heardPeer_own (now := s.clock) hq hs
      refine ⟨fun h => ?_, fun h => ?_⟩
      · rw [Received.onto_intent _ _ h, hown]
      · obtain ⟨hrun, hpos⟩ := Received.onto_presence s.clock (heardPeer sender s.clock s.peers.table) h
        rw [hrun, hpos, hown]
        exact ⟨rfl, rfl⟩
    case newIntent => rw [Received.onto_intent _ _ h, heardPeer_new hnew]
    case newPresence =>
      obtain ⟨hrun, hpos⟩ := Received.onto_presence s.clock (heardPeer sender s.clock s.peers.table) h
      rw [hrun, hpos, heardPeer_new hnew]
      exact ⟨rfl, rfl⟩
    case presence =>
      rintro run pos rfl
      exact ⟨rfl, rfl, hstays rfl⟩
    case sighting =>
      rintro prism pos quality age rfl
      refine ⟨fun hunknown => ?_, fun k r hk hprism hfirst => ?_⟩
      · exact hstays (State.offerPeerFix_unknown (by exact hunknown))
      · have hcarries : (s.frameHeard sender (.sighting prism pos quality age)).Carries k r prism :=
          ⟨hk, hprism, hfirst⟩
        refine ⟨fun hunfit => ?_, fun x hcls hquality hage hx hlater => ?_, fun a ha hlate => ?_⟩
        · exact hstays (State.offerPeerFix_unfit hcarries hunfit)
        · exact hgoes _ (State.offerPeerFix_taken hcarries hcls hquality hage hx hlater)
        · exact hstays (State.offerPeerFix_late hcarries ha hlate)
    case intent =>
      rintro prism distance hold rfl
      refine ⟨rfl, fun hignored => ?_, fun k r hk hprism hfirst hcls hhold =>
        ⟨fun hbetter => ?_, fun d hown hworse => ?_⟩⟩
      · exact hstays (State.compareIntent_ignored (by exact hignored))
      all_goals
        have hcarries : (s.frameHeard sender (.intent prism distance hold)).Carries k r prism :=
          ⟨hk, hprism, hfirst⟩
      · have hdefer := State.compareIntent_better hcarries (by exact hcfg) hcls hhold hbetter
        exact ⟨fun hs => hgoes _ (hdefer.trans (State.deferRequest_idle hcarries hs (Nat.lt_add_of_pos_right hhold))),
          fun hs => hgoes _ (hdefer.trans (State.deferRequest_later hcarries hs)),
          fun hs hrun => hgoes _ (hdefer.trans (State.deferRequest_running hcarries hs hrun))⟩
      · exact hstays (State.compareIntent_worse hcarries (by exact hcfg) hown hworse)

end Sys2Proof.Machine

namespace Sys2Proof.Machine

open Sys2Proof

/-! ### The end of the site hold (R124, R169, R173) -/

theorem Drive.holdEnd_released (ax : Axis) (now : Nat) (d : Drive) : DriveReleased ax now d (d.holdEnd ax now) := by
  refine ⟨fun hs hr => ?settles, fun hs hr => ?seeks, fun hs => if_neg hs, ?kept⟩
  all_goals unfold Drive.holdEnd
  case settles =>
    rw [if_pos hs, hr]
    exact ⟨rfl, rfl, rfl, rfl⟩
  case seeks =>
    rw [if_pos hs, hr]
    exact ⟨rfl, rfl, rfl, rfl⟩
  case kept =>
    split
    · split <;> exact ⟨rfl, rfl, rfl, rfl⟩
    · exact ⟨rfl, rfl, rfl, rfl⟩

/-- A drive that stood still in the hold (R123) settles or seeks after it, or stays UNINDEXED or in FAULT. -/
theorem Drive.holdEnd_not_ready {d : Drive} (h : d.state.stillInHold = true) (ax : Axis) (now : Nat) :
    (d.holdEnd ax now).state ≠ .ready := by
  unfold Drive.holdEnd
  split
  · split <;> exact fun hready => by cases hready
  · exact fun hready => by rw [hready] at h; cases h

/-- HOLD_CHANGED raised and both drives in their return states (R173, R124): the end of the hold before its selection. -/
def State.holdReleased (s : State) : State := { s with
  hz := s.hz.holdEnd .hz s.clock
  vt := s.vt.holdEnd .vt s.clock
  link := s.link.holdRaised }

theorem State.holdEnds_eq (s : State) : s.holdEnds = s.holdReleased.select.tryResume := rfl

theorem State.tryResume_not_suspended {s : State} (h : s.engine.state ≠ .suspended) : s.tryResume = s :=
  if_neg fun ⟨hs, _⟩ => h hs

theorem State.tryResume_not_ready {s : State} (h : s.hz.state ≠ .ready) : s.tryResume = s :=
  if_neg fun ⟨_, _, hready⟩ => h ((State.bothReady_iff .hz).mp hready).1

/-- A selection leaves the engine WAITING, or SLEWING to the record it hands over (R57, R68). -/
theorem State.selection_not_suspended {s : State} (h : s.engine.state = .waiting) :
    s.selection.engine.state ≠ .suspended := by
  rcases s.selection_selected with ⟨he, -⟩ | ⟨he, -⟩
  · rw [he, h]; decide
  · rw [he]; decide

/-- After a hold in which HZ stood still the test for resumption finds nothing: either the engine has made its selection,
or HZ is not READY yet (R102, R124). -/
theorem State.holdEnds_of_still {s : State} (h : s.hz.state.stillInHold = true) :
    s.holdEnds = s.holdReleased.select := by
  rw [State.holdEnds_eq]
  rcases s.holdReleased.select_cases with ⟨hwaiting, -, he⟩ | he <;> rw [he]
  · exact State.tryResume_not_suspended (State.selection_not_suspended hwaiting)
  · exact State.tryResume_not_ready (Drive.holdEnd_not_ready h .hz s.clock)

/-- The last source to cease signals the end of the hold (R169, R173). -/
theorem State.withHold_last {s : State} {change : State → State} (hs : s.held = true) (hc : (change s).held = false) :
    s.withHold change = (change s).holdEnds := by
  simp [State.withHold, State.signalHold, hs, hc]

section SourceEnds

variable {s : State} {change : State → State} {p : PeerExchange} (hchange : change s = { s with peers := p })
include hchange

/-- A source of the Peer Exchange ceases while another stands: nothing else follows (R169). -/
theorem lit_withHold_further (hl : s.lightConsistent) (hs : s.held = true) (hc : (change s).held = true) :
    lit (s.withHold change) = .next { s with peers := p } := by
  rw [State.withHold_further hs hc]
  rw [hchange] at hc ⊢
  exact lit_eq (State.lightConsistent_beside hl (hc.trans hs.symm))

/-- The last source ceases in the Peer Exchange: the hold ends, and a selection follows (R173, R57). -/
theorem lit_withHold_last (hstill : s.stillInHold) (hs : s.held = true) (hc : (change s).held = false) :
    ∃ u, State.HoldReleased s u ∧ u.line = s.line ∧ u.peers = p ∧ u.held = false ∧
      lit (s.withHold change) = .next u.select.followLight := by
  rw [State.withHold_last hs hc]
  rw [hchange] at hc ⊢
  obtain ⟨hhz, -⟩ := hstill hs
  refine ⟨({ s with peers := p } : State).holdReleased, ⟨⟨?_, ?_⟩, rfl⟩, rfl, rfl, hc, ?_⟩
  · exact s.hz.holdEnd_released .hz s.clock
  · exact s.vt.holdEnd_released .vt s.clock
  · exact congrArg lit (State.holdEnds_of_still (s := { s with peers := p }) hhz)

end SourceEnds

/-- The hold without its hold deadline rests on the other two sources (R169). -/
theorem State.dropHoldDeadline_held_iff {s : State} :
    s.dropHoldDeadline.held = true ↔ s.peers.holdIn = true ∨ s.line.receiver = .break := by
  simp only [State.held, Bool.or_eq_true, decide_eq_true_iff]
  simp [State.dropHoldDeadline]

/-- The hold without HOLD_IN rests on the other two sources (R169). -/
theorem State.holdInReleased_held_iff {s : State} :
    s.holdInReleased.held = true ↔ s.peers.holdDeadline.isSome = true ∨ s.line.receiver = .break := by
  simp only [State.held, Bool.or_eq_true, decide_eq_true_iff]
  simp [State.holdInReleased, or_comm]

theorem exec_holdDeadlineExpiry_over {s : State} {n : Nat} (hd : s.peers.holdDeadline = some n) (h : n ≤ s.clock) :
    exec .holdDeadlineExpiry s = lit (s.withHold State.dropHoldDeadline) :=
  congrArg lit (if_pos (expired_iff.mpr ⟨n, hd, h⟩))

theorem exec_holdDeadlineExpiry_early {s : State} (hl : s.lightConsistent)
    (h : ∀ n, s.peers.holdDeadline = some n → s.clock < n) : exec .holdDeadlineExpiry s = .next s := by
  refine Eq.trans (congrArg lit (if_neg ?_)) (lit_eq hl)
  rw [expired_iff]
  rintro ⟨n, hd, hle⟩
  exact Nat.not_le.mpr (h n hd) hle

theorem exec_holdInFalling_edge {s : State} (hin : s.peers.holdIn = true) :
    exec .holdInFalling s = lit (s.withHold State.holdInReleased) := congrArg lit (if_pos hin)

theorem exec_holdInFalling_released {s : State} (hl : s.lightConsistent) (hin : s.peers.holdIn = false) :
    exec .holdInFalling s = .next s :=
  Eq.trans (congrArg lit (if_neg (by rw [hin]; decide))) (lit_eq hl)

/-- Settles O58: either source is dropped by `exec_holdDeadlineExpiry_over` or `exec_holdInFalling_edge`; what follows is
`lit_withHold_further` while another stands, and `lit_withHold_last` when none does. -/
theorem holdEndsWithLastSource : Obligations.HoldEndsWithLastSource := by
  intro s hl hstill
  refine ⟨fun n hd hn => ?deadline, exec_holdDeadlineExpiry_early hl, fun hin => ?level,
    exec_holdInFalling_released hl⟩
  case deadline =>
    have hs : s.held = true := by simp [State.held, hd]
    rw [exec_holdDeadlineExpiry_over hd hn]
    refine ⟨fun hother => lit_withHold_further rfl hl hs (State.dropHoldDeadline_held_iff.mpr hother),
      fun hin hr => lit_withHold_last rfl hstill hs ?_⟩
    rw [← Bool.not_eq_true, State.dropHoldDeadline_held_iff, hin]
    exact fun hother => hother.elim (by decide) hr
  case level =>
    have hs : s.held = true := by simp [State.held, hin]
    rw [exec_holdInFalling_edge hin]
    refine ⟨fun hother => lit_withHold_further rfl hl hs (State.holdInReleased_held_iff.mpr hother),
      fun hd hr => lit_withHold_last rfl hstill hs ?_⟩
    rw [← Bool.not_eq_true, State.holdInReleased_held_iff, hd]
    exact fun hother => hother.elim (by decide) hr

end Sys2Proof.Machine

namespace Sys2Proof.Machine

open Sys2Proof

/-! ### READ_PEERS (R191) -/

/-- The items are the non-empty entries, numbered from `i` on (R191). -/
theorem mem_peerItems {now j : Nat} {q : Peer} {os : List (Option Peer)} {i : Nat} :
    (j, q) ∈ peerItems now i os ↔ i ≤ j ∧ ∃ p, os[j - i]? = some (some p) ∧ q = peerReport now p := by
  induction os generalizing i with
  | nil => simp [peerItems]
  | cons o os ih =>
    have hlater : (j, q) ∈ peerItems now (i + 1) os ↔
        i < j ∧ ∃ p, (o :: os)[j - i]? = some (some p) ∧ q = peerReport now p := by
      rw [ih]
      refine and_congr_right fun hlt => ?_
      rw [show j - i = j - (i + 1) + 1 by omega, List.getElem?_cons_succ]
    rcases Nat.lt_trichotomy j i with hlt | rfl | hgt
    · cases o <;> simp [peerItems, hlater] <;> omega
    · cases o <;> simp [peerItems, hlater]
    · have hne : j ≠ i := by omega
      cases o <;> simp [peerItems, hlater, hne, hgt, hgt.le]

/-- The items come in the order of their numbers (R191). -/
theorem peerItems_pairwise (now : Nat) (os : List (Option Peer)) (i : Nat) :
    (peerItems now i os).Pairwise fun x y => x.1 < y.1 := by
  induction os generalizing i with
  | nil => exact .nil
  | cons o os ih =>
    cases o with
    | none => exact ih (i + 1)
    | some p =>
      refine .cons (fun y hy => ?_) (ih (i + 1))
      obtain ⟨hle, -⟩ := mem_peerItems.mp hy
      exact hle

theorem exec_readPeers_ready {s : State} (h : s.LinkReady) : exec (.readPeers true) s =
    .next (s.respond 15 (.ok (.peers s.clock (peerItems s.clock 0 s.peers.table)))) :=
  congrArg _ (State.takeCommand_ready h .readPeers () readPeersRule)

/-- Settles O17: the items are those of `peerItems`, numbered from 0. -/
theorem readPeersReports : Obligations.ReadPeersReports := fun s hready =>
  ⟨peerItems s.clock 0 s.peers.table, exec_readPeers_ready hready, peerItems_pairwise _ _ _,
    fun i q => by simp [mem_peerItems, peerReport]⟩

/-! ### SITE_HOLD (R172) -/

theorem exec_siteHold_ready {s : State} (h : s.LinkReady) :
    exec (.siteHold true) s = .next (s.requestBreak.respond 18 (.ok .none)) :=
  congrArg _ (State.takeCommand_ready h .siteHold () siteHoldRule)

/-- Settles O41: the command is the break request of `State.requestBreak_line`, and its answer. -/
theorem siteHoldRequestsBreak : Obligations.SiteHoldRequestsBreak := by
  intro s hready
  obtain ⟨hbreaking, hfree⟩ := s.requestBreak_line
  obtain ⟨hframe, hreceiver⟩ := s.requestBreak_frame
  refine ⟨_, exec_siteHold_ready hready, ?frame, ?line, s.held_congr (by simp) (by simpa), hbreaking, fun hno => ?sends⟩
  case frame => rw [hframe]; rfl
  case line =>
    rw [State.respond_line]
    by_cases h : ∃ w, s.line.transmitter = .sendingBreak w
    · obtain ⟨w, hw⟩ := h
      rw [hbreaking w hw]
    · rw [hfree fun w hw => h ⟨w, hw⟩]
      rfl
  case sends =>
    rw [State.respond_line, hfree hno]
    exact ⟨rfl, rfl⟩

/-! ### POWER_ON_RESET with HOLD_IN asserted (R171) -/

/-- A break request to a line without the part's own break (R157). -/
theorem State.requestBreak_free {s : State} (h : ∀ w, s.line.transmitter ≠ .sendingBreak w) :
    s.requestBreak = { s with line := s.line.breakRequested s.instant } := by
  rw [s.requestBreak_frame.1, s.requestBreak_line.2 h]

/-- The part fresh from power-on reset, before the level of HOLD_IN is looked at (R8). -/
def State.poweredOn (s : State) : State := { State.reset with
  hz := { Drive.reset with bridgeFault := s.hz.bridgeFault }
  vt := { Drive.reset with bridgeFault := s.vt.bridgeFault }
  choices := s.choices + 1
  pending := s.pending }

theorem exec_powerOnReset_rises (s : State) : exec (.powerOnReset true) s = .next s.poweredOn.holdInRises := rfl

theorem State.poweredOn_instant (s : State) : s.poweredOn.instant = 0 := by
  simp [State.instant, State.poweredOn, State.reset]

/-- HOLD_IN taken as a rising edge at clock 0: no aim is suspended and no drive is braked, so that only the sources, the
break and HOLD_CHANGED are written. -/
theorem State.poweredOn_holdInRises (s : State) : s.poweredOn.holdInRises = { s.poweredOn with
    line := SiteLine.reset.breakRequested 0
    peers := { PeerExchange.reset with holdIn := true, repeatDeadline := some 1000 }
    link := CommandLink.reset.holdRaised } := by
  rw [← s.poweredOn_instant]
  exact State.requestBreak_free fun w hw => by cases hw

/-- Settles O21: the state is that of `State.poweredOn_holdInRises`. -/
theorem powerOnTakesHoldIn : Obligations.PowerOnTakesHoldIn := fun s =>
  ⟨_, (exec_powerOnReset_rises s).trans (congrArg _ s.poweredOn_holdInRises),
    rfl, rfl, rfl, rfl, rfl, rfl, rfl, rfl, rfl, rfl⟩

end Sys2Proof.Machine

namespace Sys2Proof.Machine

open Sys2Proof

/-! ### How the link takes a host command (R178, R180) -/

/-- While the slot is HOLDING a command is discarded (R178). -/
theorem State.takeCommand_holding {α : Type} {s : State} (h : s.link.slot.isSome = true) (k : CommandCode)
    (args : Option α) (rule : α → State → Taken) :
    s.takeCommand k args rule = s.respond k.number (.refused .sequenceError) := if_pos h

/-- A length that does not match (R180 test 2). -/
theorem State.takeCommand_badLength {α : Type} {s : State} (h : s.link.slot = none) (k : CommandCode)
    (rule : α → State → Taken) : s.takeCommand k none rule = s.respond k.number (lengthRefusal k) :=
  if_neg (by simp [h])

/-- A command before CONFIGURE that needs it (R180 test 3). -/
theorem State.takeCommand_unconfigured {α : Type} {s : State} (h : s.link.slot = none) {k : CommandCode}
    (hk : k.needsConfigure = true) (hc : s.config = none) (a : α) (rule : α → State → Taken) :
    s.takeCommand k (some a) rule = s.respond k.number (.refused .notConfigured) :=
  (if_neg (by simp [h])).trans (if_pos ⟨hk, hc⟩)

/-- AIM_NOW alone is refused for its length with a filter result (R196). -/
theorem lengthRefusal_eq (k : CommandCode) :
    lengthRefusal k = if k.number = 11 then .aimRefused none else .refused .badValue := by
  cases k <;> rfl

/-- CONFIGURE, READ_STATUS and RESET alone are accepted before CONFIGURE (R180 test 3). -/
theorem needsConfigure_of_number {k : CommandCode} (h1 : k.number ≠ 1) (h14 : k.number ≠ 14) (h19 : k.number ≠ 19) :
    k.needsConfigure = true := by
  cases k
  case configure => exact absurd rfl h1
  case readStatus => exact absurd rfl h14
  case reset => exact absurd rfl h19
  all_goals rfl

/-- A command without payload has its operand exactly when its length is 0. -/
theorem noPayload_isNone (fits : Bool) : (noPayload fits).isNone = !fits := by cases fits <;> rfl

/-- The command is taken by the link under the code `k`, its operands absent exactly when its length does not match; the
emitter then follows R128, for the commands whose rule may touch one of its conditions. -/
def TakenAs (k : CommandCode) (c : Instr) (s : State) : Prop :=
  ∃ (α : Type) (args : Option α) (rule : α → State → Taken), args.isNone = c.mismatched ∧
    (exec c s = .next (s.takeCommand k args rule) ∨ exec c s = lit (s.takeCommand k args rule))

/-- Every host command with a known code is taken under that code (R177, R195). -/
theorem takenAs_of_commandByte {c : Instr} {n : Nat} (h : c.commandByte = some n) (s : State) :
    (∃ code : Byte, c = .unknownCommand code ∧ code.toNat = n) ∨ ∃ k, k.number = n ∧ TakenAs k c s := by
  cases c with
  | unknownCommand code => exact .inl ⟨code, rfl, Option.some.inj h⟩
  | configure args => exact .inr ⟨.configure, Option.some.inj h, _, args, configureRule, rfl, .inr rfl⟩
  | setStation args => exact .inr ⟨.setStation, Option.some.inj h, _, args, setStationRule, rfl, .inr rfl⟩
  | loadTarget args => exact .inr ⟨.loadTarget, Option.some.inj h, _, args, loadTargetRule, rfl, .inl rfl⟩
  | editTarget args => exact .inr ⟨.editTarget, Option.some.inj h, _, args, editTargetRule, rfl, .inl rfl⟩
  | retireTarget prism => exact .inr ⟨.retireTarget, Option.some.inj h, _, prism, retireTargetRule, rfl, .inr rfl⟩
  | readTarget slot => exact .inr ⟨.readTarget, Option.some.inj h, _, slot, readTargetRule, rfl, .inl rfl⟩
  | setSector args => exact .inr ⟨.setSector, Option.some.inj h, _, args, setSectorRule, rfl, .inr rfl⟩
  | readSector args => exact .inr ⟨.readSector, Option.some.inj h, _, args, readSectorRule, rfl, .inl rfl⟩
  | run fits => exact .inr ⟨.run, Option.some.inj h, _, _, runRule, noPayload_isNone fits, .inl rfl⟩
  | pause fits => exact .inr ⟨.pause, Option.some.inj h, _, _, pauseRule, noPayload_isNone fits, .inr rfl⟩
  | aimNow prism => exact .inr ⟨.aimNow, Option.some.inj h, _, prism, aimNowRule, rfl, .inl rfl⟩
  | range args => exact .inr ⟨.range, Option.some.inj h, _, args, rangeRule, rfl, .inr rfl⟩
  | takeObservation fits =>
    exact .inr ⟨.takeObservation, Option.some.inj h, _, _, takeObservationRule, noPayload_isNone fits, .inl rfl⟩
  | readStatus fits => exact .inr ⟨.readStatus, Option.some.inj h, _, _, readStatusRule, noPayload_isNone fits, .inl rfl⟩
  | readPeers fits => exact .inr ⟨.readPeers, Option.some.inj h, _, _, readPeersRule, noPayload_isNone fits, .inl rfl⟩
  | ackEvents marks => exact .inr ⟨.ackEvents, Option.some.inj h, _, marks, ackEventsRule, rfl, .inl rfl⟩
  | clearFault axis => exact .inr ⟨.clearFault, Option.some.inj h, _, axis, clearFaultRule, rfl, .inr rfl⟩
  | siteHold fits => exact .inr ⟨.siteHold, Option.some.inj h, _, _, siteHoldRule, noPayload_isNone fits, .inl rfl⟩
  | reset fits => exact .inr ⟨.reset, Option.some.inj h, _, _, resetRule, noPayload_isNone fits, .inl rfl⟩
  | _ => cases h

/-- A response alone leaves the emitter as R128 has it. -/
theorem lit_respond {s : State} (h : s.lightConsistent) (code : Nat) (a : Answer) :
    lit (s.respond code a) = .next (s.respond code a) := congrArg _ (State.followLight_respond h code a)

section Refusals

variable {k : CommandCode} {c : Instr} {s : State} (h : TakenAs k c s) (hl : s.lightConsistent)

include h hl

/-- What the link answers by itself is the whole effect of the command. -/
theorem TakenAs.exec_eq {a : Answer} (ha : ∀ {α : Type} (args : Option α) (rule : α → State → Taken),
    args.isNone = c.mismatched → s.takeCommand k args rule = s.respond k.number a) :
    exec c s = .next (s.respond k.number a) := by
  obtain ⟨α, args, rule, hargs, hexec | hexec⟩ := h
  · rw [hexec, ha args rule hargs]
  · rw [hexec, ha args rule hargs, lit_respond hl]

theorem TakenAs.exec_holding (hs : s.link.slot.isSome = true) :
    exec c s = .next (s.respond k.number (.refused .sequenceError)) :=
  h.exec_eq hl fun args rule _ => State.takeCommand_holding hs k args rule

theorem TakenAs.exec_badLength (hs : s.link.slot = none) (hc : c.mismatched = true) :
    exec c s = .next (s.respond k.number (lengthRefusal k)) := by
  refine h.exec_eq hl fun args rule hargs => ?_
  rw [hc, Option.isNone_iff_eq_none] at hargs
  rw [hargs, State.takeCommand_badLength hs]

theorem TakenAs.exec_unconfigured (hs : s.link.slot = none) (hc : c.mismatched = false) (hk : k.needsConfigure = true)
    (hconfig : s.config = none) : exec c s = .next (s.respond k.number (.refused .notConfigured)) := by
  refine h.exec_eq hl fun args rule hargs => ?_
  cases args with
  | none => rw [hc] at hargs; cases hargs
  | some a => exact State.takeCommand_unconfigured hs hk hconfig a rule

end Refusals

theorem exec_unknownCommand_holding {s : State} (h : s.link.slot.isSome = true) (code : Byte) :
    exec (.unknownCommand code) s = .next (s.respond code.toNat (.refused .sequenceError)) := by
  change Host.Outcome.next (s.respond _ (.refused (if s.link.slot.isSome = true then _ else _))) = _
  rw [if_pos h]

theorem exec_unknownCommand_empty {s : State} (h : s.link.slot = none) (code : Byte) :
    exec (.unknownCommand code) s = .next (s.respond code.toNat (.refused .unknownCommand)) := by
  change Host.Outcome.next (s.respond _ (.refused (if s.link.slot.isSome = true then _ else _))) = _
  rw [if_neg (by simp [h])]

/-- Settles O10: an unknown command has its own arm, every other host command goes through `takeCommand`. -/
theorem unreadResponseDiscardsCommand : Obligations.UnreadResponseDiscardsCommand := by
  intro c n s hbyte hslot hlight
  obtain ⟨code, rfl, rfl⟩ | ⟨k, rfl, htaken⟩ := takenAs_of_commandByte hbyte s
  · exact exec_unknownCommand_holding hslot code
  · exact htaken.exec_holding hlight hslot

/-- Settles O11: an unknown command has its own arm, the other two tests are those of `takeCommand`. -/
theorem linkTestsRefuse : Obligations.LinkTestsRefuse := by
  intro c n s hbyte hslot hlight
  refine ⟨?unknown, fun hlength => ?length, fun hknown hlength h1 h14 h19 hconfig => ?unconfigured⟩
  case unknown =>
    rintro ⟨code, rfl⟩
    cases hbyte
    exact exec_unknownCommand_empty hslot code
  case length =>
    obtain ⟨code, rfl, -⟩ | ⟨k, rfl, htaken⟩ := takenAs_of_commandByte hbyte s
    · cases hlength
    · rw [htaken.exec_badLength hlight hslot hlength, lengthRefusal_eq]
      rfl
  case unconfigured =>
    obtain ⟨code, rfl, -⟩ | ⟨k, rfl, htaken⟩ := takenAs_of_commandByte hbyte s
    · exact absurd rfl (hknown code)
    · exact htaken.exec_unconfigured hlight hslot hlength (needsConfigure_of_number h1 h14 h19) hconfig

end Sys2Proof.Machine

namespace Sys2Proof.Machine

open Sys2Proof

/-! ### CONFIGURE at a drive (R108) -/

section ConfigureDrive

variable {d : Drive} (offset : Int) (now : Nat)

theorem Drive.configure_indexing (h : d.state = .unindexed) :
    d.configure offset false now = ({ d with offset := some offset } : Drive).seek now := if_pos h

theorem Drive.configure_braked (h : d.state = .unindexed) :
    d.configure offset true now = ({ d with offset := some offset } : Drive).brake .indexing := if_pos h

theorem Drive.configure_started (h : d.state ≠ .unindexed) (held : Bool) :
    d.configure offset held now = { d with offset := some offset } := if_neg h

/-- A seek begins at the seek rate, in the positive direction (R108). -/
theorem Drive.seek_bridge (d : Drive) (ax : Axis) : (d.seek now).bridge ax = .seeking 200 := rfl

/-- The drive after CONFIGURE, in the words of the statements (R108). -/
theorem Drive.configure_driveConfigured (held : Bool) (d : Drive) :
    DriveConfigured held now offset d (d.configure offset held now) := by
  by_cases h : d.state = .unindexed
  · cases held with
    | false =>
      rw [Drive.configure_indexing offset now h]
      exact ⟨rfl, rfl, rfl, rfl, fun hno => absurd h hno, fun _ _ => ⟨rfl, rfl, rfl, rfl, Drive.seek_bridge now _⟩,
        fun _ hheld => by cases hheld⟩
    | true =>
      rw [Drive.configure_braked offset now h]
      exact ⟨rfl, rfl, rfl, rfl, fun hno => absurd h hno, fun _ hfree => (by cases hfree),
        fun _ _ => ⟨rfl, rfl, fun _ => rfl⟩⟩
  · rw [Drive.configure_started offset now h]
    exact ⟨rfl, rfl, rfl, rfl, fun _ => rfl, fun hno => absurd hno h, fun hno => absurd hno h⟩

end ConfigureDrive

/-! ### CONFIGURE (R181) -/

/-- The value test of CONFIGURE (R181). -/
theorem configureInRange_iff (a : ConfigureArgs) : configureInRange a = true ↔
    1 ≤ a.station ∧ a.station ≤ 15 ∧ a.group ≤ 15 ∧ a.listenOnly ≤ 1 ∧ a.hzOffset ≤ 3999999 ∧ 150000 ≤ a.vtOffset ∧
      a.vtOffset ≤ 1850000 := by
  simp [configureInRange, and_assoc]

theorem configureRule_configured {s : State} (h : s.config.isSome = true) (a : ConfigureArgs) :
    configureRule a s = s.refuse .alreadyConfigured := if_pos h

theorem configureRule_outOfRange {s : State} (h : s.config = none) {a : ConfigureArgs}
    (ha : configureInRange a = false) : configureRule a s = s.refuse .badValue := by
  simp [configureRule, h, ha]

theorem configureRule_accepted {s : State} (h : s.config = none) {a : ConfigureArgs}
    (ha : configureInRange a = true) : configureRule a s = ⟨.ok .none, s.configure a⟩ := by
  simp [configureRule, h, ha]

/-- CONFIGURE taken with the slot EMPTY is answered by its own rule, configured or not (R180). -/
theorem exec_configure_empty {s : State} (h : s.link.slot = none) (a : ConfigureArgs) :
    exec (.configure (some a)) s = lit ((configureRule a s).state.respond 1 (configureRule a s).answer) :=
  congrArg lit (s.takeCommand_accepted .configure a configureRule h fun hk => by cases hk)

theorem exec_configure_refused {s : State} (h : s.link.slot = none) (hl : s.lightConsistent) {a : ConfigureArgs}
    {why : Reason} (hr : configureRule a s = s.refuse why) :
    exec (.configure (some a)) s = .next (s.respond 1 (.refused why)) := by
  rw [exec_configure_empty h, hr]
  exact lit_respond hl _ _

/-- Settles O23: the two tests of `configureRule`, in their order. -/
theorem configureRefused : Obligations.ConfigureRefused := by
  intro a s hslot hlight
  refine ⟨fun hconfig => ?configured, fun hconfig hout => ?outOfRange⟩
  case configured => exact exec_configure_refused hslot hlight (configureRule_configured hconfig a)
  case outOfRange =>
    have hbad : configureInRange a = false := by
      rw [← Bool.not_eq_true, configureInRange_iff]
      omega
    exact exec_configure_refused hslot hlight (configureRule_outOfRange hconfig hbad)

/-- The line after CONFIGURE's listen-only value, before the PRESENCE is offered (R153, R181). -/
def SiteLine.configured (listenOnly : Nat) (l : SiteLine) : SiteLine :=
  { l with listenOnly := l.listenOnly || decide (listenOnly = 1) }

/-- The first PRESENCE of a part whose engine is STOPPED (R162). -/
def State.firstPresence (s : State) : Frame :=
  .presence (if s.held then .held else .paused) (s.setup.map fun u => ⟨u.es, u.ns, u.hs⟩)

theorem State.runState_stopped {s : State} (h : s.engine.state = .stopped) :
    s.runState = if s.held then .held else .paused := by
  rw [State.runState, if_pos h]

/-- The work of an accepted CONFIGURE, block by block (R181). -/
theorem State.configure_eq {s : State} (h : s.engine.state = .stopped) (a : ConfigureArgs) : s.configure a = { s with
    config := some ⟨a.station, a.group⟩
    line := (s.line.configured a.listenOnly).offered s.firstPresence true
    light := { s.light with beam := some (beamCode a.station) }
    hz := s.hz.configure a.hzOffset s.held s.clock
    vt := s.vt.configure a.vtOffset s.held s.clock
    peers := { s.peers with presenceDeadline := some (s.clock + 5000) } } := by
  rw [State.firstPresence, ← State.runState_stopped h]
  exact State.offerPresence_eq _

theorem exec_configure_accepted {s : State} (hs : s.link.slot = none) (hc : s.config = none)
    (he : s.engine.state = .stopped) (hl : s.lightConsistent) {a : ConfigureArgs} (ha : configureInRange a = true) :
    exec (.configure (some a)) s = .next ((s.configure a).respond 1 (.ok .none)) := by
  have hoff : s.light.emitter = .off := State.emitter_off_of_unlit hl (Engine.wantsLight_stopped he)
  rw [exec_configure_empty hs, configureRule_accepted hc ha]
  refine congrArg _ (State.followLight_stopped ?_ ?_)
  · rw [State.configure_eq he]
    exact he
  · rw [State.configure_eq he]
    exact hoff

theorem SiteLine.offered_listens (f : Frame) (configured : Bool) (l : SiteLine) :
    (l.offered f configured).listenOnly = l.listenOnly := by
  unfold SiteLine.offered
  split <;> rfl

/-- Settles O22: the state is that of `State.configure_eq`, with the answer in the slot. -/
theorem configureAccepted : Obligations.ConfigureAccepted := by
  intro a s hslot hconfig hstopped hlight h1 h15 hg hlisten hhz hvt hvt'
  have hgood : configureInRange a = true := (configureInRange_iff a).mpr ⟨h1, h15, hg, hlisten, hhz, hvt, hvt'⟩
  refine ⟨_, exec_configure_accepted hslot hconfig hstopped hlight hgood, ?_⟩
  rw [State.configure_eq hstopped]
  refine ⟨rfl, rfl, rfl, Drive.configure_driveConfigured .., Drive.configure_driveConfigured ..,
    SiteLine.offered_listens .., fun hlistens => ?silent, fun hspeaks hempty => ?joins, rfl, rfl⟩
  case silent =>
    rw [State.respond_line, SiteLine.offered_listens] at hlistens
    rw [SiteLine.offered_listenOnly hlistens]
    rfl
  case joins =>
    rw [State.respond_line, SiteLine.offered_listens] at hspeaks
    have hempty' : (s.line.configured a.listenOnly).queue = [] := hempty
    rw [SiteLine.offered_joins hspeaks, hempty']
    rfl

end Sys2Proof.Machine

namespace Sys2Proof.Machine

open Sys2Proof

/-! ### RESET (R182) at a drive and at the line (R125, R158) -/

/-- A drive in service brakes to rest, and settles there (R125). -/
theorem Drive.resetCommand_performing {d : Drive} (h : d.state = .ready ∨ d.state = .moving ∨ d.state = .fine)
    (ax : Axis) (now : Nat) (rest : Int) : d.resetCommand ax now rest = (d.read ax 0 rest).settle ax now := by
  rcases h with h | h | h <;> rw [Drive.resetCommand, h]

theorem Drive.resetCommand_settling {d : Drive} (h : d.state = .settling) (ax : Axis) (now : Nat) (rest : Int) :
    d.resetCommand ax now rest = { d with pendingTarget := none } := by
  rw [Drive.resetCommand, h]

theorem Drive.resetCommand_standing {d : Drive}
    (h : d.state = .unindexed ∨ d.state = .indexing ∨ d.state = .braked ∨ d.state = .fault)
    (ax : Axis) (now : Nat) (rest : Int) : d.resetCommand ax now rest = d := by
  rcases h with h | h | h | h <;> rw [Drive.resetCommand, h]

/-- RESET leaves the index alone (R125). -/
theorem Drive.resetCommand_index (ax : Axis) (now : Nat) (rest : Int) (d : Drive) :
    (d.resetCommand ax now rest).indexed = d.indexed ∧ (d.resetCommand ax now rest).offset = d.offset ∧
      (d.resetCommand ax now rest).midpoint = d.midpoint := by
  unfold Drive.resetCommand
  split <;> exact ⟨rfl, rfl, rfl⟩

theorem Drive.resetCommand_driveAfterReset (ax : Axis) (now : Nat) (rest : Int) (d : Drive) :
    DriveAfterReset ax now rest d (d.resetCommand ax now rest) := by
  refine ⟨fun h => ?performing, fun h => Drive.resetCommand_settling h ax now rest,
    fun h => Drive.resetCommand_standing h ax now rest, d.resetCommand_index ax now rest⟩
  rw [Drive.resetCommand_performing h]
  exact ⟨rfl, rfl, rfl, rfl, rfl, rfl⟩

/-- RESET lets a break of the part's own go on, and drops everything else that is being sent (R158). -/
theorem SiteLine.resetCommand_transmitter (now : Nat) (l : SiteLine) :
    (∀ w, l.transmitter = .sendingBreak w → (l.resetCommand now).transmitter = .sendingBreak w) ∧
      ((∀ w, l.transmitter ≠ .sendingBreak w) → (l.resetCommand now).transmitter = .idle) := by
  unfold SiteLine.resetCommand
  cases h : l.transmitter <;> simp

/-- A frame cut short starts the idle count, unless the line lay at mark before (R154, log entry 19). -/
theorem SiteLine.resetCommand_idleFrom (now : Nat) (l : SiteLine) :
    (∀ out, l.transmitter = .sending out → (l.resetCommand now).idleFrom = l.idleFrom.map (min · now)) ∧
      ((∀ out, l.transmitter ≠ .sending out) → (l.resetCommand now).idleFrom = l.idleFrom) := by
  unfold SiteLine.resetCommand
  cases h : l.transmitter <;> simp [SiteLine.cutShort]

/-- RESET taken with the slot EMPTY is answered by its own rule, configured or not (R180). -/
theorem exec_reset_empty {s : State} (h : s.link.slot = none) :
    exec (.reset true) s = .next (s.resetCommand.respond 19 (.ok .none)) :=
  congrArg _ (s.takeCommand_accepted .reset () resetRule h fun hk => by cases hk)

/-- Settles O24: what RESET writes is `State.resetCommand`, block by block. -/
theorem resetClears : Obligations.ResetClears := by
  intro s hslot
  obtain ⟨hbreaking, hfree⟩ := s.line.resetCommand_transmitter s.instant
  obtain ⟨hcut, hlying⟩ := s.line.resetCommand_idleFrom s.instant
  exact ⟨_, exec_reset_empty hslot, rfl, Drive.resetCommand_driveAfterReset .., Drive.resetCommand_driveAfterReset ..,
    rfl, rfl, rfl, rfl, rfl, hbreaking, hfree, hcut, hlying, rfl⟩

end Sys2Proof.Machine

namespace Sys2Proof.Machine

open Sys2Proof

/-! ### Fields of a payload (R192, R193) -/

theorem fieldAt_of_bytes {p : List Byte} {i k x : Nat} (h : slice p i k = bytesOf k x) (hx : fitsBytes k x = true) :
    fieldAt p i k = x := by
  rw [fieldAt, h, natOf_bytesOf, Nat.mod_eq_of_lt (of_decide_eq_true hx)]

theorem fieldAt_of_byte {p : List Byte} {i x : Nat} (h : slice p i 1 = byte1 x) (hx : fitsBytes 1 x = true) :
    fieldAt p i 1 = x := by
  rw [fieldAt, h, byte1, natOf_byte]
  exact Nat.mod_eq_of_lt (of_decide_eq_true hx)

theorem fitsSigned4_iff (x : Int) : fitsSigned4 x = true ↔ -2147483648 ≤ x ∧ x < 2147483648 := by
  simp [fitsSigned4]

/-- A position that fits is read back from its 12 bytes. -/
theorem gridAt_of_fits {g : Grid} {p : List Byte} {i : Nat} (h : g.fits = true)
    (he : slice p i 4 = signedBytes 4 g.e) (hn : slice p (i + 4) 4 = signedBytes 4 g.n)
    (hh : slice p (i + 8) 4 = signedBytes 4 g.h) : gridAt p i = g := by
  simp only [Grid.fits, Bool.and_eq_true, fitsSigned4_iff] at h
  obtain ⟨⟨hfe, hfn⟩, hfh⟩ := h
  rw [gridAt, he, hn, hh, intOf_signedBytes hfe, intOf_signedBytes hfn, intOf_signedBytes hfh]

/-- A position behind its presence mark is read back, or is absent (R193). -/
theorem markedGrid_of_bytes {o : Option Grid} {p : List Byte} {i : Nat} (h : allOf Grid.fits o = true)
    (hmark : slice p i 1 = byte1 (if o.isSome then 1 else 0))
    (he : slice p (i + 1) 4 = signedBytes 4 (o.getD ⟨0, 0, 0⟩).e)
    (hn : slice p (i + 1 + 4) 4 = signedBytes 4 (o.getD ⟨0, 0, 0⟩).n)
    (hh : slice p (i + 1 + 8) 4 = signedBytes 4 (o.getD ⟨0, 0, 0⟩).h) : markedGrid p i = o := by
  have hmarked : fieldAt p i 1 = if o.isSome then 1 else 0 := fieldAt_of_byte hmark (by cases o <;> rfl)
  rw [markedGrid, hmarked]
  cases o with
  | none => rfl
  | some g => exact congrArg some (gridAt_of_fits h he hn hh)

/-! ### Payloads (R196) -/

theorem configureOf_bytes {a : ConfigureArgs} (h : a.fits = true) : configureOf
    (byte1 a.station ++ byte1 a.group ++ byte1 a.listenOnly ++ bytesOf 4 a.hzOffset ++ bytesOf 4 a.vtOffset) = a := by
  simp only [ConfigureArgs.fits, Bool.and_eq_true] at h
  obtain ⟨⟨⟨⟨hstation, hgroup⟩, hlisten⟩, hhz⟩, hvt⟩ := h
  rw [configureOf, fieldAt_of_byte rfl hstation, fieldAt_of_byte rfl hgroup, fieldAt_of_byte rfl hlisten,
    fieldAt_of_bytes rfl hhz, fieldAt_of_bytes rfl hvt]

theorem stationOf_bytes {a : StationArgs} (h : a.fits = true) :
    stationOf (gridBytes ⟨a.es, a.ns, a.hs⟩ ++ bytesOf 2 a.hi ++ bytesOf 4 a.o) = a := by
  simp only [StationArgs.fits, Bool.and_eq_true] at h
  obtain ⟨⟨⟨⟨hes, hns⟩, hhs⟩, hhi⟩, ho⟩ := h
  have hgrid : (⟨a.es, a.ns, a.hs⟩ : Grid).fits = true := by simp [Grid.fits, hes, hns, hhs]
  rw [stationOf, gridAt_of_fits hgrid rfl rfl rfl, fieldAt_of_bytes rfl hhi, fieldAt_of_bytes rfl ho]

theorem loadOf_bytes {a : LoadArgs} (h : a.fits = true) :
    loadOf (byte1 a.prism ++ byte1 a.cls ++ byte1 a.blink ++ markedBytes a.nominal ++ bytesOf 4 a.interval ++
      bytesOf 2 a.dwell) = a := by
  simp only [LoadArgs.fits, Bool.and_eq_true] at h
  obtain ⟨⟨⟨⟨⟨hprism, hcls⟩, hblink⟩, hnominal⟩, hinterval⟩, hdwell⟩ := h
  rw [loadOf, fieldAt_of_byte rfl hprism, fieldAt_of_byte rfl hcls, fieldAt_of_byte rfl hblink,
    markedGrid_of_bytes hnominal rfl rfl rfl rfl, fieldAt_of_bytes rfl hinterval, fieldAt_of_bytes rfl hdwell]

theorem editOf_bytes {a : EditArgs} (h : a.fits = true) :
    editOf (byte1 a.prism ++ bytesOf 4 a.interval ++ bytesOf 2 a.dwell ++ markedBytes a.nominal) = a := by
  simp only [EditArgs.fits, Bool.and_eq_true] at h
  obtain ⟨⟨⟨hprism, hinterval⟩, hdwell⟩, hnominal⟩ := h
  rw [editOf, fieldAt_of_byte rfl hprism, fieldAt_of_bytes rfl hinterval, fieldAt_of_bytes rfl hdwell,
    markedGrid_of_bytes hnominal rfl rfl rfl rfl]

theorem sectorOfBytes_bytes {a : SectorArgs} (h : a.fits = true) :
    sectorOfBytes (byte1 a.first ++ byte1 a.last ++ byte1 a.mode ++ bytesOf 3 a.vmin ++ bytesOf 3 a.vmax) = a := by
  simp only [SectorArgs.fits, Bool.and_eq_true] at h
  obtain ⟨⟨⟨⟨hfirst, hlast⟩, hmode⟩, hvmin⟩, hvmax⟩ := h
  rw [sectorOfBytes, fieldAt_of_byte rfl hfirst, fieldAt_of_byte rfl hlast, fieldAt_of_byte rfl hmode,
    fieldAt_of_bytes rfl hvmin, fieldAt_of_bytes rfl hvmax]

theorem sectorRangeOf_bytes {a : SectorRange} (h : a.fits = true) :
    sectorRangeOf (byte1 a.first ++ byte1 a.last) = a := by
  simp only [SectorRange.fits, Bool.and_eq_true] at h
  obtain ⟨hfirst, hlast⟩ := h
  rw [sectorRangeOf, fieldAt_of_byte rfl hfirst, fieldAt_of_byte rfl hlast]

theorem rangeOf_bytes {a : RangeArgs} (h : a.fits = true) : rangeOf (bytesOf 2 a.seq ++ bytesOf 3 a.distance) = a := by
  simp only [RangeArgs.fits, Bool.and_eq_true] at h
  obtain ⟨hseq, hdistance⟩ := h
  rw [rangeOf, fieldAt_of_bytes rfl hseq, fieldAt_of_bytes rfl hdistance]

/-- The eight bits of the event byte are its eight marks (R187, R196). -/
theorem eventsOfByte_eventByte (e : EventSet) : eventsOfByte (eventByte e) = e := by
  obtain ⟨e0, e1, e2, e3, e4, e5, e6, e7⟩ := e
  revert e0 e1 e2 e3 e4 e5 e6 e7
  decide

theorem eventByte_fits (e : EventSet) : fitsBytes 1 (eventByte e) = true := by
  obtain ⟨e0, e1, e2, e3, e4, e5, e6, e7⟩ := e
  revert e0 e1 e2 e3 e4 e5 e6 e7
  decide

/-- The payload of ACK_EVENTS is read back (R196). -/
theorem eventsOfByte_byte1 (e : EventSet) : eventsOfByte (fieldAt (byte1 (eventByte e)) 0 1) = e := by
  rw [fieldAt_of_byte rfl (eventByte_fits e), eventsOfByte_eventByte]

/-! ### Transfers (R177, R180) -/

theorem commandOfCode_number (k : CommandCode) : commandOfCode k.number = some k := by cases k <;> rfl

theorem decodeTransfer_code {code : Byte} {k : CommandCode} (h : code.toNat = k.number) (len : Byte)
    (payload : List Byte) : decodeTransfer (code :: len :: payload) = commandOf k (fittingPayload k len payload) := by
  rw [decodeTransfer, h, commandOfCode_number]

theorem CommandCode.number_toNat (k : CommandCode) : (Byte.ofNat k.number).toNat = k.number := by cases k <;> rfl

/-- The length byte of a command's payload, and the one that a frame of the wrong length carries. -/
theorem payloadLength_toNat (k : CommandCode) : (Byte.ofNat (payloadLength k)).toNat = payloadLength k ∧
    (Byte.ofNat (payloadLength k + 1)).toNat = payloadLength k + 1 := by
  cases k <;> exact ⟨rfl, rfl⟩

/-- A frame whose payload, if it has one, is of the command's length is decoded with that payload (R177). -/
theorem decodeTransfer_commandFrame {k : CommandCode} {p : Option (List Byte)}
    (h : ∀ b, p = some b → b.length = payloadLength k) : decodeTransfer (commandFrame k p) = commandOf k p := by
  obtain ⟨hfits, hwrong⟩ := payloadLength_toNat k
  cases p with
  | none =>
    refine (decodeTransfer_code k.number_toNat _ _).trans (congrArg _ (if_neg fun hlen => ?_))
    rw [hwrong] at hlen
    omega
  | some b =>
    have hb : (Byte.ofNat b.length).toNat = payloadLength k := by rw [h b rfl, hfits]
    exact (decodeTransfer_code k.number_toNat _ _).trans (congrArg _ (if_pos ⟨hb, (h b rfl).trans hb.symm⟩))

/-- A command with operands comes back when its payload has the command's length and gives the operands back. -/
theorem decodeTransfer_operands {α : Type} {k : CommandCode} {args : Option α} {fits : α → Bool}
    {encode : α → List Byte} {decode : List Byte → α} (make : Option α → Instr)
    (hmake : ∀ p, commandOf k p = make (p.map decode)) (hlength : ∀ a, (encode a).length = payloadLength k)
    (hdecode : ∀ a, fits a = true → decode (encode a) = a) (h : allOf fits args = true) :
    decodeTransfer (commandFrame k (args.map encode)) = make args := by
  rw [decodeTransfer_commandFrame, hmake]
  · cases args with
    | none => rfl
    | some a => exact congrArg (make ∘ some) (hdecode a h)
  · intro b hb
    obtain ⟨a, -, rfl⟩ := Option.map_eq_some_iff.mp hb
    exact hlength a

/-- A command without operands comes back, its length right or not. -/
theorem decodeTransfer_emptyPayload {k : CommandCode} (make : Bool → Instr)
    (hmake : ∀ p, commandOf k p = make p.isSome) (hlength : payloadLength k = 0) (fits : Bool) :
    decodeTransfer (commandFrame k (emptyPayload fits)) = make fits := by
  refine (decodeTransfer_commandFrame fun b hb => ?_).trans ((hmake _).trans ?_)
  · cases fits with
    | false => cases hb
    | true => cases hb; exact hlength.symm
  · cases fits <;> rfl

/-- Settles O59: command by command, the payload gives the operands back; the events have no transfer. -/
theorem transferRoundTrip : Obligations.TransferRoundTrip := by
  intro c bs hfits hencode
  have hbyte : ∀ x, fitsBytes 1 x = true → fieldAt (byte1 x) 0 1 = x := fun _ => fieldAt_of_byte rfl
  cases c with
  | configure args =>
    cases hencode
    exact decodeTransfer_operands .configure (fun _ => rfl) (fun _ => rfl) (fun _ => configureOf_bytes) hfits
  | setStation args =>
    cases hencode
    exact decodeTransfer_operands .setStation (fun _ => rfl) (fun _ => rfl) (fun _ => stationOf_bytes) hfits
  | loadTarget args =>
    cases hencode
    exact decodeTransfer_operands .loadTarget (fun _ => rfl) (fun _ => rfl) (fun _ => loadOf_bytes) hfits
  | editTarget args =>
    cases hencode
    exact decodeTransfer_operands .editTarget (fun _ => rfl) (fun _ => rfl) (fun _ => editOf_bytes) hfits
  | retireTarget prism =>
    cases hencode
    exact decodeTransfer_operands .retireTarget (fun _ => rfl) (fun _ => rfl) hbyte hfits
  | readTarget slot =>
    cases hencode
    exact decodeTransfer_operands .readTarget (fun _ => rfl) (fun _ => rfl) hbyte hfits
  | setSector args =>
    cases hencode
    exact decodeTransfer_operands .setSector (fun _ => rfl) (fun _ => rfl) (fun _ => sectorOfBytes_bytes) hfits
  | readSector args =>
    cases hencode
    exact decodeTransfer_operands .readSector (fun _ => rfl) (fun _ => rfl) (fun _ => sectorRangeOf_bytes) hfits
  | aimNow prism =>
    cases hencode
    exact decodeTransfer_operands .aimNow (fun _ => rfl) (fun _ => rfl) hbyte hfits
  | range args =>
    cases hencode
    exact decodeTransfer_operands .range (fun _ => rfl) (fun _ => rfl) (fun _ => rangeOf_bytes) hfits
  | ackEvents marks =>
    cases hencode
    exact decodeTransfer_operands (fits := fun _ => true) .ackEvents (fun _ => rfl) (fun _ => rfl)
      (fun m _ => eventsOfByte_byte1 m) (by cases marks <;> rfl)
  | clearFault axis =>
    cases hencode
    exact decodeTransfer_operands .clearFault (fun _ => rfl) (fun _ => rfl) hbyte hfits
  | run fits => cases hencode; exact decodeTransfer_emptyPayload .run (fun _ => rfl) rfl fits
  | pause fits => cases hencode; exact decodeTransfer_emptyPayload .pause (fun _ => rfl) rfl fits
  | takeObservation fits => cases hencode; exact decodeTransfer_emptyPayload .takeObservation (fun _ => rfl) rfl fits
  | readStatus fits => cases hencode; exact decodeTransfer_emptyPayload .readStatus (fun _ => rfl) rfl fits
  | readPeers fits => cases hencode; exact decodeTransfer_emptyPayload .readPeers (fun _ => rfl) rfl fits
  | siteHold fits => cases hencode; exact decodeTransfer_emptyPayload .siteHold (fun _ => rfl) rfl fits
  | reset fits => cases hencode; exact decodeTransfer_emptyPayload .reset (fun _ => rfl) rfl fits
  | unknownCommand code => cases hencode; rfl
  | _ => cases hencode

end Sys2Proof.Machine

namespace Sys2Proof.Machine

open Sys2Proof

/-! ### The observation queue (R185, R186) -/

theorem State.giveObservation_first {s : State} (h : s.link.observations = []) (o : Observation) :
    s.giveObservation o = { s with link := { s.link with
      observations := [o], events := { s.link.events with observation := true } } } := by
  simp [State.giveObservation, State.raise, setMark, h]

theorem State.giveObservation_joins {s : State} (h : 0 < s.link.observations.length)
    (hroom : s.link.observations.length < 16) (o : Observation) :
    s.giveObservation o = { s with link := { s.link with observations := s.link.observations ++ [o] } } := by
  have hne : ¬ s.link.observations.isEmpty = true := by
    rw [List.isEmpty_iff_length_eq_zero]
    omega
  rw [State.giveObservation, if_pos hroom]
  exact if_neg hne

theorem State.giveObservation_full {s : State} (h : 16 ≤ s.link.observations.length) (o : Observation) :
    s.giveObservation o = { s with link := { s.link with events := { s.link.events with queueFull := true } } } :=
  if_neg (by omega)

/-- Settles O19: an empty queue, one with room, a full one. -/
theorem observationQueueBounded : Obligations.ObservationQueueBounded := fun o _ =>
  ⟨fun h => State.giveObservation_first h o, fun h hroom => State.giveObservation_joins h hroom o,
    fun h => State.giveObservation_full h o⟩

theorem takeObservationRule_empty {s : State} (h : s.link.observations = []) :
    takeObservationRule () s = s.refuse .empty := by
  rw [takeObservationRule, h]

theorem takeObservationRule_head {s : State} {o : Observation} {rest : List Observation}
    (h : s.link.observations = o :: rest) : takeObservationRule () s = ⟨.ok (.observation o), s⟩ := by
  rw [takeObservationRule, h]

theorem exec_takeObservation_ready {s : State} (h : s.LinkReady) : exec (.takeObservation true) s =
    .next ((takeObservationRule () s).state.respond 13 (takeObservationRule () s).answer) :=
  congrArg _ (State.takeCommand_ready h .takeObservation () takeObservationRule)

/-- Settles O15: the queue is empty or has a head. -/
theorem takeObservationReportsHead : Obligations.TakeObservationReportsHead := by
  intro s hready
  rw [exec_takeObservation_ready hready]
  refine ⟨fun hempty => ?_, fun o rest hqueue => ?_⟩
  · rw [takeObservationRule_empty hempty]
    rfl
  · rw [takeObservationRule_head hqueue]
    rfl

/-! ### RESPONSE_READ (R179) -/

theorem exec_responseRead_empty {s : State} (h : s.link.slot = none) (n : Nat) :
    exec (.responseRead n) s = .next s := by
  change execResponseRead n s = _
  rw [execResponseRead, h]

theorem exec_responseRead_short {s : State} {r : Response} (h : s.link.slot = some r) {n : Nat}
    (hn : n < (responseBytes r).length) : exec (.responseRead n) s = .next s := by
  change execResponseRead n s = _
  rw [execResponseRead, h]
  exact congrArg _ (if_pos hn)

theorem exec_responseRead_whole {s : State} {r : Response} (h : s.link.slot = some r) {n : Nat}
    (hn : (responseBytes r).length ≤ n) : exec (.responseRead n) s = .next { s with link := { s.link with
      slot := none
      observations := if r.takesHead then s.link.observations.tail else s.link.observations } } := by
  change execResponseRead n s = _
  rw [execResponseRead, h]
  exact congrArg _ (if_neg (Nat.not_lt.mpr hn))

/-- Settles O12: an EMPTY slot, a read that is too short, a whole one. -/
theorem responseReadEmptiesSlot : Obligations.ResponseReadEmptiesSlot := by
  intro n s
  refine ⟨fun hempty => exec_responseRead_empty hempty n, fun r hslot =>
    ⟨exec_responseRead_short hslot, fun hn => ?whole⟩⟩
  rw [exec_responseRead_whole hslot hn, Response.takesHead]
  cases r.answer with
  | ok payload => cases payload <;> rfl
  | refused why => rfl
  | aimRefused result => rfl

/-! ### READ_STATUS (R190) -/

theorem Emitter.isOn_eq (e : Emitter) : e.isOn = decide (e ≠ .off) := by
  cases e <;> rfl

theorem exec_readStatus_empty {s : State} (h : s.link.slot = none) :
    exec (.readStatus true) s = .next (s.respond 14 (.ok (.status s.status))) :=
  congrArg _ (s.takeCommand_accepted .readStatus () readStatusRule h fun hk => by cases hk)

/-- Settles O16: the report is `State.status`, whose items are those of R190 as they stand. -/
theorem readStatusReports : Obligations.ReadStatusReports := by
  intro s hslot
  rw [exec_readStatus_empty hslot, State.status, Emitter.isOn_eq]
  rfl

/-! ### ACK_EVENTS (R188, R189) -/

theorem anyMark_eq_false_iff (e : EventSet) : anyMark e = false ↔ e = EventSet.clear := by
  cases e
  simp [anyMark, EventSet.clear, and_assoc]

theorem exec_ackEvents_ready {s : State} (h : s.LinkReady) (m : EventSet) : exec (.ackEvents (some m)) s =
    .next ((ackEventsRule m s).state.respond 16 (ackEventsRule m s).answer) :=
  congrArg _ (State.takeCommand_ready h .ackEvents m ackEventsRule)

/-- Settles O18: the marks left are `clearMarks`, and attention is asserted while any of them is set. -/
theorem ackEventsClearsNamed : Obligations.AckEventsClearsNamed := by
  intro m s hready
  refine ⟨clearMarks m s.link.events, exec_ackEvents_ready hready m, rfl, fun t ht => ?attention⟩
  rw [exec_ackEvents_ready hready] at ht
  cases ht
  exact anyMark_eq_false_iff _

end Sys2Proof.Machine

namespace Sys2Proof.Machine

open Sys2Proof

/-! ### The step (log entries 2 and 3) -/

theorem step_cons {s : State} {c : Instr} {rest : List Instr} (hp : s.pending = c :: rest) :
    step s = exec c { s with pending := rest } := by
  rw [step, hp]

/-- Settles O1: the front of the queue is what `step` runs, on the state that holds the rest. -/
theorem stepTakesFront : Obligations.StepTakesFront := fun _ _ _ => step_cons

theorem step_idle {s : State} (hp : s.pending = []) : step s = .next s.idle := by
  rw [step, hp]

/-- The free choice is brought into the list of the events that stand, so it always names one of them. -/
theorem State.chosenEvent_mem {s : State} (ho : s.outstanding ≠ []) :
    ∃ e ∈ s.outstanding, s.chosenEvent = some e :=
  have hlt : Config.eventChoice s.choices % s.outstanding.length < s.outstanding.length :=
    Nat.mod_lt _ (List.length_pos_of_ne_nil ho)
  ⟨_, List.getElem_mem hlt, List.getElem?_eq_getElem hlt⟩

/-- With events standing, the idle step queues one of them, the only one or the chosen one. -/
theorem State.idle_standing {s : State} (ho : s.outstanding ≠ []) :
    ∃ e ∈ s.outstanding, s.idle = { s with pending := [e], choices := s.choices + 1 } := by
  unfold State.idle
  split
  case h_1 hnone => exact absurd hnone ho
  case h_2 e hone => exact ⟨e, by simp [hone], rfl⟩
  case h_3 =>
    obtain ⟨e, he, hchosen⟩ := State.chosenEvent_mem ho
    exact ⟨e, he, by rw [hchosen]; rfl⟩

theorem State.passTime_fine_lt (s : State) : s.passTime.fine < finePerMs := Nat.mod_lt _ (by decide)

/-- Time passes no further than to the next millisecond of the site clock (R8). -/
theorem State.nextInstant_le_nextMs (s : State) : s.nextInstant ≤ (s.clock + 1) * finePerMs :=
  earliestAfter_le _ _

/-- Settles O2: with events standing the step is `State.idle_standing`; with none it is `State.passTime`, to an instant
after the present one and not beyond the next millisecond. -/
theorem idleStep : Obligations.IdleStep := by
  intro s hp hf
  refine ⟨fun ho => ?standing, fun ho => ⟨s.passTime, step_passTime hp ho, rfl, s.passTime_fine_lt, ?later, ?bounded⟩⟩
  case standing =>
    obtain ⟨e, he, hidle⟩ := State.idle_standing ho
    exact ⟨e, he, (step_idle hp).trans (congrArg _ hidle)⟩
  case later => rw [State.passTime_instant]; exact State.instant_lt_nextInstant hf
  case bounded => rw [State.passTime_instant]; exact s.nextInstant_le_nextMs

end Sys2Proof.Machine
